-- ==== Sys2Proof/Word.lean ====
section
/-! DEFINITION. The words of the Worplane 2640: bytes, stream identifiers, frame numbers, clip and cue ids, and the
numbered places of its fixed tables. Nothing here has a rule of its own; the arithmetic the rules give stands in Machine/Ops.lean. -/

namespace Sys2Proof

/-- One byte of a feed, of the output port, of a management line or of site memory. -/
abbrev Byte := BitVec 8

/-- A run of bytes, first byte first. -/
abbrev Bytes := List Byte

/-- A stream identifier, the 12-bit label of a cell header (section 1.2). -/
abbrev Sid := BitVec 12

/-- A frame number: 24 bits, wrapping (00_scope.md, section 5). -/
abbrev FrameNo := BitVec 24

/-- A clip id (R103). -/
abbrev ClipId := BitVec 16

/-- A cue id (section 1.4). -/
abbrev CueId := BitVec 16

/-- A frame slot number, 0..39 (section 6.1). -/
abbrev SlotNo := Fin 40

/-- A clip block number, 0..1,023 (section 6.2). -/
abbrev BlockNo := Fin 1024

/-- A programme number, 0..7 (R133). -/
abbrev ProgNo := Fin 8

/-- A break list number, 0..31 (R121). -/
abbrev ListNo := Fin 32

/-- A ring entry number of the entry pool, 0..255 (R121). -/
abbrev EntryNo := Fin 256

/-- A catalogue place, 0..63 (R103). -/
abbrev PlaceNo := Fin 64

/-- A load context number, 0..3 (R108). -/
abbrev CtxNo := Fin 4

/-- A draft table entry, 0..31 (R157). -/
abbrev DraftNo := Fin 32

end Sys2Proof
end

