-- ==== Sys2Proof/Config.lean ====
section
/-! DEFINITION. The figures of the part that no request changes. The spec leaves none of them open, so this file holds no
free value: every constant has the number the cited rule gives. -/

namespace Sys2Proof.Config

/-- Ticks of 100 ns in one second (00_scope.md, section 5). -/
def ticksPerSecond : Nat := 10000000

/-- Ticks in one round of the 32-bit seconds count: S wraps from 2^32 - 1 to 0 (R49). -/
def ticksPerEra : Nat := 4294967296 * ticksPerSecond

/-- The sync byte of a cell (section 1.2). -/
def syncByte : Byte := 0xB8

/-- Bytes in a cell (section 1.2). -/
def cellBytes : Nat := 176

/-- Bytes in a cell's payload (section 1.2). -/
def payloadBytes : Nat := 168

/-- Bytes in a clip cell (section 1.5). -/
def clipCellBytes : Nat := 169

/-- The SID that carries frame markers only (section 1.2). -/
def markerSid : Sid := 4095

/-- The SID of null cells (section 1.2). -/
def nullSid : Sid := 4094

/-- Cell positions of a frame slot (section 6.1). -/
def cellsPerSlot : Nat := 256

/-- Clip cells in one clip block (section 6.2). -/
def cellsPerBlock : Nat := 4096

/-- Entries an intake FIFO holds (R17). -/
def intakeFifoSize : Nat := 64

/-- Ticks of silence that lose SYNC (R14). -/
def feedSilenceTicks : Nat := 100000

/-- Ticks of silence that end a management frame in progress (R170). -/
def mgmtSilenceTicks : Nat := 1000000

/-- Frame numbers the decided list holds (R34). -/
def decidedSize : Nat := 16

/-- Entries the pairing table holds (R37). -/
def pairingSize : Nat := 8

/-- Entries the load FIFO holds (R109). -/
def loadFifoSize : Nat := 32

/-- The longest clip, in cells (R103). -/
def maxClipCells : Nat := 262144

/-- Where the cells-ignored count of a record stays once reached (R103). -/
def maxCellsIgnored : Nat := 16777215

/-- Cues a programme's queue holds (R137). -/
def cueQueueSize : Nat := 4

/-- Cue ids a programme's expired list holds (R139). -/
def expiredSize : Nat := 4

/-- Cues a frame record's cue list holds (R27). -/
def cueListSize : Nat := 4

/-- Clip items a draft keeps (R159). -/
def draftItems : Nat := 16

/-- Records the as-run queue holds (R162). -/
def asRunQueueSize : Nat := 64

/-- Frames a port's input queue holds (R171). -/
def inputQueueSize : Nat := 4

/-- The longest body of a management frame (R9). -/
def maxBody : Nat := 1024

/-- The start byte of a management frame (section 1.6). -/
def startByte : Byte := 0xA5

end Sys2Proof.Config
end

