-- ==== Sys2Proof/Syntax.lean ====
section
/-! DEFINITION. The commands and events of the Worplane 2640, one constructor for each row of spec/opcode_table.json.
The table gives no operands; those here are what the row's rule says arrives with the event (a port, a feed, the bytes). -/

namespace Sys2Proof

/-- The two management ports (00_scope.md, section 7). -/
inductive Port where
  | network
  | maintenance
deriving DecidableEq, Repr

/-- The two contribution feeds (00_scope.md, section 7). -/
inductive Feed where
  | a
  | b
deriving DecidableEq, Repr

/-- A step of the part: a request, an event on a pin or a line, or an event inside the device. -/
inductive Instr where
  /-- RESET_LINE. The reset input is asserted, or power comes on (R83). -/
  | resetLine
  /-- MGMT_FRAME_RECEIVED. Port `p` receives `bytes` on its line, in order (R170). A whole frame ends with its two check bytes; a shorter run leaves the receiver inside the frame. -/
  | mgmtFrameReceived (p : Port) (bytes : Bytes)
  /-- MGMT_FRAMING_ERROR. A byte with a UART framing error arrives on port `p` (R170). -/
  | mgmtFramingError (p : Port)
  /-- MGMT_RECEIVE_SILENCE. 1,000,000 ticks have passed on port `p` without a byte inside a frame (R170). -/
  | mgmtReceiveSilence (p : Port)
  /-- MGMT_FRAME_SENT. Port `p`'s transmitter has sent its frame in full (R180). -/
  | mgmtFrameSent (p : Port)
  /-- UNKNOWN_KIND. The request in service on port `p` is of the row UNKNOWN_KIND and is answered (R10). -/
  | unknownKind (p : Port)
  /-- READ_STATUS. The request in service on port `p` is of the row READ_STATUS and is answered (R181). -/
  | readStatus (p : Port)
  /-- READ_IDENTITY. The request in service on port `p` is of the row READ_IDENTITY and is answered (R182). -/
  | readIdentity (p : Port)
  /-- SET_MASK. The request in service on port `p` is of the row SET_MASK and is answered (R179). -/
  | setMask (p : Port)
  /-- CLEAR_CONDITIONS. The request in service on port `p` is of the row CLEAR_CONDITIONS and is answered (R178). -/
  | clearConditions (p : Port)
  /-- TAKE_LOCAL. The request in service on port `p` is of the row TAKE_LOCAL and is answered (R176). -/
  | takeLocal (p : Port)
  /-- RETURN_REMOTE. The request in service on port `p` is of the row RETURN_REMOTE and is answered (R176). -/
  | returnRemote (p : Port)
  /-- CLAIM_REMOTE. The request in service on port `p` is of the row CLAIM_REMOTE and is answered (R176). -/
  | claimRemote (p : Port)
  /-- SET_LOCKOUT. The request in service on port `p` is of the row SET_LOCKOUT and is answered (R177). -/
  | setLockout (p : Port)
  /-- RELEASE. The request in service on port `p` is of the row RELEASE and is answered (R174). -/
  | release (p : Port)
  /-- SITE_RESTART. The request in service on port `p` is of the row SITE_RESTART and is answered (R175). -/
  | siteRestart (p : Port)
  /-- QUERY_LIST. The request in service on port `p` is of the row QUERY_LIST and is answered (R183). -/
  | queryList (p : Port)
  /-- SET_WINDOW. The request in service on port `p` is of the row SET_WINDOW and is answered (R25). -/
  | setWindow (p : Port)
  /-- SET_DEFAULT_ACTION. The request in service on port `p` is of the row SET_DEFAULT_ACTION and is answered (R25). -/
  | setDefaultAction (p : Port)
  /-- SET_SELECTOR. The request in service on port `p` is of the row SET_SELECTOR and is answered (R33). -/
  | setSelector (p : Port)
  /-- SET_TIMEBASE. The request in service on port `p` is of the row SET_TIMEBASE and is answered (R61). -/
  | setTimebase (p : Port)
  /-- SET_TIME. The request in service on port `p` is of the row SET_TIME and is answered (R60). -/
  | setTime (p : Port)
  /-- SET_SITE. The request in service on port `p` is of the row SET_SITE and is answered (R66). -/
  | setSite (p : Port)
  /-- SET_OUTPUT_MODE. The request in service on port `p` is of the row SET_OUTPUT_MODE and is answered (R76). -/
  | setOutputMode (p : Port)
  /-- SET_ARBITER. The request in service on port `p` is of the row SET_ARBITER and is answered (R101). -/
  | setArbiter (p : Port)
  /-- CLIP_OPEN. The request in service on port `p` is of the row CLIP_OPEN and is answered (R106). -/
  | clipOpen (p : Port)
  /-- CLIP_DATA. The request in service on port `p` is of the row CLIP_DATA and is answered (R111). -/
  | clipData (p : Port)
  /-- CLIP_ABORT. The request in service on port `p` is of the row CLIP_ABORT and is answered (R113). -/
  | clipAbort (p : Port)
  /-- CLIP_DELETE. The request in service on port `p` is of the row CLIP_DELETE and is answered (R114). -/
  | clipDelete (p : Port)
  /-- CLIP_INFO. The request in service on port `p` is of the row CLIP_INFO and is answered (R115). -/
  | clipInfo (p : Port)
  /-- CATALOGUE_READ. The request in service on port `p` is of the row CATALOGUE_READ and is answered (R116). -/
  | catalogueRead (p : Port)
  /-- SET_SLOT. The request in service on port `p` is of the row SET_SLOT and is answered (R119). -/
  | setSlot (p : Port)
  /-- LIST_INSERT. The request in service on port `p` is of the row LIST_INSERT and is answered (R124). -/
  | listInsert (p : Port)
  /-- LIST_REMOVE. The request in service on port `p` is of the row LIST_REMOVE and is answered (R125). -/
  | listRemove (p : Port)
  /-- LIST_READ. The request in service on port `p` is of the row LIST_READ and is answered (R127). -/
  | listRead (p : Port)
  /-- SET_PROGRAMME. The request in service on port `p` is of the row SET_PROGRAMME and is answered (R134). -/
  | setProgramme (p : Port)
  /-- CUE_ANSWER. The request in service on port `p` is of the row CUE_ANSWER and is answered (R140). -/
  | cueAnswer (p : Port)
  /-- PROGRAMME_RESET. The request in service on port `p` is of the row PROGRAMME_RESET and is answered (R153). -/
  | programmeReset (p : Port)
  /-- AS_RUN_FETCH. The request in service on port `p` is of the row AS_RUN_FETCH and is answered (R163). -/
  | asRunFetch (p : Port)
  /-- SET_COUNTER. The request in service on port `p` is of the row SET_COUNTER and is answered (R167). -/
  | setCounter (p : Port)
  /-- SNAPSHOT_COUNTERS. The request in service on port `p` is of the row SNAPSHOT_COUNTERS and is answered (R168). -/
  | snapshotCounters (p : Port)
  /-- CLEAR_COUNTERS. The request in service on port `p` is of the row CLEAR_COUNTERS and is answered (R169). -/
  | clearCounters (p : Port)
  /-- FEED_DELINEATION_BYTE. Feed `f` delivers byte `b` while its intake is in HUNT or PRESYNC (R13). -/
  | feedDelineationByte (f : Feed) (b : Byte)
  /-- FEED_CELL_POSITION. Feed `f` delivers `bytes`, in order, of one cell position while its intake is in SYNC (R14): all 176, or some of those still to come. -/
  | feedCellPosition (f : Feed) (bytes : Bytes)
  /-- FEED_SILENCE. SYNC on feed `f` has lasted 100,000 ticks without a byte (R14). -/
  | feedSilence (f : Feed)
  /-- INTAKE_MARKER_AT_HEAD. A marker stands at the head of the intake FIFO of feed `f` (R19). -/
  | intakeMarkerAtHead (f : Feed)
  /-- INTAKE_CELL_AT_HEAD. A data cell stands at the head of the intake FIFO of feed `f` (R22). -/
  | intakeCellAtHead (f : Feed)
  /-- INTAKE_BURST_COMPLETE. The burst of INTAKE_A or INTAKE_B, as `f` is A or B, completes (R18). -/
  | intakeBurstComplete (f : Feed)
  /-- PAIRING_WAIT_END. The wait of the pairing entry of frame `n` has reached 0 (R44). -/
  | pairingWaitEnd (n : FrameNo)
  /-- REFERENCE_PULSE. A reference pulse is taken, classified good or outlier, and acts under the discipline state. (R51) -/
  | referencePulse
  /-- MISSING_PULSE_CHECK. When T passes W the pulse-seen flag is checked and cleared, and a missing pulse acts under the discipline state. (R53) -/
  | missingPulseCheck
  /-- SECOND_BOUNDARY. The tick count wraps T and raises S by one second. (R49) -/
  | secondBoundary
  /-- REFERENCE_LOSS. No reference period for 1 microsecond makes presence ABSENT and moves counting to the internal oscillator. (R50) -/
  | referenceLoss
  /-- REFERENCE_RETURN. 10,000 consecutive reference periods without a gap make presence PRESENT. (R50) -/
  | referenceReturn
  /-- DUE_INSTANT. An item's due instant arrives and it becomes the item in service and is handled by the output mode. (R77) -/
  | dueInstant
  /-- CREDIT_RETURN. A credit-return pulse adds one credit and may start a waiting item sending. (R82) -/
  | creditReturn
  /-- CREDIT_WAIT_EXPIRY. In SFN_STRICT an item still waiting at D plus C is dropped and counted as NO_CREDIT. (R78) -/
  | creditWaitExpiry
  /-- GAP_CANDIDATE_INSTANT. At each instant Dn plus i times P the emission unit examines the buffer and may make a gap frame. (R81) -/
  | gapCandidateInstant
  /-- EMIT_BURST_COMPLETE. An EMIT burst completes and the read cell is sent on the output port with its header formed and restamped. (R96) -/
  | emitBurstComplete
  /-- OUTPUT_CELL_SENT. A cell finishes leaving the output port; after the last cell of a frame the slot is freed and the item in service ends. (R79) -/
  | outputCellSent
  /-- SPLICE_BURST_COMPLETE. A SPLICE burst completes, the replacing cell is in place and the splice cursor advances. (R147) -/
  | spliceBurstComplete
  /-- LOAD_BURST_COMPLETE. A LOAD burst completes, the clip cell is loaded and digested, and the entry leaves the load FIFO. (R109) -/
  | loadBurstComplete
  /-- BODY_LENGTH_OVER_LIMIT. Port `p` receives `bytes`, whose last byte is the second length byte of a frame longer than R9 allows (R170). -/
  | bodyLengthOverLimit (p : Port) (bytes : Bytes)
deriving DecidableEq, Repr

end Sys2Proof
end

