-- ==== Sys2Proof/Machine/State.lean ====
section
/-! DEFINITION. The state of the Worplane 2640, block by block in the manual's chapter order, the reasons a step can stop,
and the machine right after the reset line. `Site` holds what SiteRestart keeps of the configuration, with the timebase and the
phase; `Device` holds what the stream, the requests and the site memory change; `State` joins them with the control ownership
and the queue of waiting commands. -/

namespace Sys2Proof.Machine

/-! ### Stopping -/

/-- Why a step could stop with a fault. No meaning raises one: the manual gives every step an effect in every state, and a burst carries
its place in site memory as numbers of the pool's own range, so it cannot name a place that does not exist. -/
inductive Fault where
  /-- A burst outside the two pools of site memory (section 6.1, section 6.2). Raised by no meaning; safe. -/
  | outsideSiteMemory
deriving DecidableEq, Repr

/-- Why a step could be refused. -/
inductive Refusal where
  /-- A row of the opcode table without a meaning; raised by no arm of `exec`, since every row has one; safe. -/
  | notModelled (mnemonic : String)
deriving DecidableEq, Repr

/-! ### Chapter 1: cells -/

/-- The qualifier of a cell (section 1.2). -/
inductive Qualifier where
  | payload | signal | marker | null
deriving DecidableEq, Repr

/-- The fields of a cell header that are examined or emitted (section 1.2, R1). -/
structure Header where
  sid : Sid
  qual : Qualifier
  disc : Bool
  cont : BitVec 4
  aux : Byte
  index : BitVec 16
deriving DecidableEq, Repr

/-! ### Chapter 2: windows and intakes -/

/-- What a window does with a cell it hits (section 2.5). -/
inductive WindowKind where
  | carry | drop | load
deriving DecidableEq, Repr

/-- The feeds a window acts on (section 2.5). -/
inductive FeedSet where
  | onlyA | onlyB | both
deriving DecidableEq, Repr

/-- One identifier window (section 2.5). -/
structure Window where
  enabled : Bool
  feeds : FeedSet
  kind : WindowKind
  base : Sid
  mask : Sid
  translate : Option Sid
deriving DecidableEq, Repr

/-- The site default action (section 2.5). -/
inductive DefaultAction where
  | carry | drop
deriving DecidableEq, Repr

/-- Delineation states (R13). -/
inductive Delin where
  | hunt | presync | sync
deriving DecidableEq, Repr

/-- One arrival frame of the arrival side: the declared cell count of its marker, whether its taking has ended, and the damage noted
against it (section 2.1, R16, R17, R31). -/
structure ArrivalFrame where
  declared : Nat
  ended : Bool
  overrun : Bool
  syncLoss : Bool
deriving DecidableEq, Repr

/-- An entry of an intake FIFO, held as received (R17). -/
inductive FifoEntry where
  | marker (cell : Bytes)
  | data (cell : Bytes)
deriving DecidableEq, Repr

/-- One enabled programme of a programme snapshot (R19): its cue SID and component SIDs. -/
structure ProgSnap where
  prog : ProgNo
  cueSid : Option Sid
  comps : Vector (Option Sid) 8
deriving DecidableEq, Repr

/-- One entry of a frame record's header list (R28), with its position. `lateNull` marks a position that late fill sends as a null cell
although site memory was not written (R80, R150). -/
structure HeaderEntry where
  pos : Nat
  sid : Sid
  qual : Qualifier
  owner : Option (ProgNo × Fin 8)
  lateNull : Bool
deriving DecidableEq, Repr

/-- The assembly context (section 2.1). No slot means NO_SLOT (R20). `writing` is the header list entry that the head cell's position gets
once its burst completes (R28). -/
structure Assembly where
  slot : Option SlotNo
  next : Nat
  windows : Vector Window 16
  defaultAction : DefaultAction
  progs : List ProgSnap
  writing : Option HeaderEntry
deriving DecidableEq, Repr

/-- One cell intake (section 2.1). `since` counts the bytes after the last sync byte found in PRESYNC, and so stands for the candidate
position; `silence` counts ticks without a byte in SYNC, and `cellSoFar` holds the bytes of the cell position that is arriving in SYNC
(R14). `arrivals` holds the arrival frames oldest first: the last is the manual's arrival context, the earlier ones are frames whose
entries are still in the FIFO. A component SID without an entry in `continuity` is unknown (R26). -/
structure Intake where
  delin : Delin
  since : Nat
  found : Nat
  misses : Nat
  silence : Nat
  cellSoFar : Bytes
  arrivals : List ArrivalFrame
  fifo : List FifoEntry
  assembly : Option Assembly
  continuity : List (Sid × BitVec 4)
deriving DecidableEq, Repr

/-! ### The frame record -/

/-- The six states of a frame slot (R87). -/
inductive SlotState where
  | free | assembling | pending | queued | splicing | emitting
deriving DecidableEq, Repr

/-- The damage cause set of a frame (section 2.7). -/
structure Damage where
  missing : Bool
  overrun : Bool
  check : Bool
  stampRange : Bool
  overlong : Bool
  syncLoss : Bool
deriving DecidableEq, Repr

/-- An entry of a frame record's cue list (R27). -/
structure CueEntry where
  sid : Sid
  index : Nat
  payload : Bytes
deriving DecidableEq, Repr

/-- A due instant: the exact total tick count of R68, and the round of the 32-bit seconds count in which it was computed. -/
structure Due where
  total : Int
  era : Nat
deriving DecidableEq, Repr

/-- One programme of a frame's break mark (R144): the break, and whether the frame has a replaced position of the programme. -/
structure Mark where
  prog : ProgNo
  brk : Nat
  replaced : Bool
deriving DecidableEq, Repr

/-- One position of a frame's work order (R147). -/
structure WorkItem where
  prog : ProgNo
  pos : Nat
deriving DecidableEq, Repr

/-- The frame record of a slot (section 2.7), with the break mark (R144) and the work order its splice cursor counts (R147). -/
structure Record where
  state : SlotState
  feed : Option Feed
  number : Option FrameNo
  stamp : Option (Byte × Nat)
  declared : Nat
  marker : Bytes
  written : Nat
  running : BitVec 32
  expected : BitVec 32
  damage : Damage
  headers : List HeaderEntry
  cues : List CueEntry
  completed : Option Int
  due : Option Due
  cursor : Option Nat
  work : List WorkItem
  marks : List Mark
deriving DecidableEq, Repr

/-! ### Chapter 3: the frame selector -/

/-- Selection modes (section 3.1). -/
inductive SelMode where
  | firstValid | primaryA
deriving DecidableEq, Repr

/-- An entry of the pairing table (section 3.1). -/
structure PairEntry where
  number : FrameNo
  held : Option (SlotNo × Feed)
  damagedA : Bool
  damagedB : Bool
  wait : Nat
deriving DecidableEq, Repr

/-- The selector's two collections (section 3.1): decided numbers oldest first, pairing entries in creation order. -/
structure Selector where
  decided : List FrameNo
  table : List PairEntry
deriving DecidableEq, Repr

/-! ### Chapter 4: the site timebase -/

/-- Discipline states (section 4.1). -/
inductive Discipline where
  | unset | acquiring | locked | holdover | expired
deriving DecidableEq, Repr

/-- The site timebase (section 4.1). `era` counts the wraps of S that second boundaries made (R49); `checkDue` is set by the tick at which
T becomes W + 1 and cleared by the missing-pulse check made there (R53). -/
structure Timebase where
  secs : BitVec 32
  ticks : Nat
  disc : Discipline
  good : Nat
  outliers : Nat
  holdover : Nat
  label : Option (BitVec 32)
  pulseSeen : Bool
  present : Bool
  lockWindow : Nat
  pulsesToLock : Nat
  holdoverLimit : Nat
  era : Nat
  checkDue : Bool
deriving DecidableEq, Repr

/-! ### Chapter 5: release scheduling and emission -/

/-- Site modes (section 5.2). -/
inductive SiteMode where
  | sfnStrict | freeRun
deriving DecidableEq, Repr

/-- The site timing settings (section 5.2). -/
structure Timing where
  mode : SiteMode
  offset : Int
  latency : Nat
  guard : Nat
  horizon : Nat
  period : Nat
  tolerance : Nat
  credits : Nat
  region : Nat
deriving DecidableEq, Repr

/-- The host choice (R76). -/
inductive HostChoice where
  | onAir | mute | standby
deriving DecidableEq, Repr

/-- The output mode (R75); derived, never held. -/
inductive OutputMode where
  | onAir | muted | standby
deriving DecidableEq, Repr

/-- A frame that has left at its due instant (section 5.1, last released). -/
structure Released where
  number : FrameNo
  due : Due
deriving DecidableEq, Repr

/-- The gap reference (section 5.1), and the number i of the next candidate instant of R81. -/
structure GapRef where
  number : FrameNo
  due : Due
  next : Nat
deriving DecidableEq, Repr

/-- A gap frame (R81): its number, due instant and marker cell. -/
structure GapFrame where
  number : FrameNo
  due : Due
  marker : Bytes
deriving DecidableEq, Repr

/-- What an item is: a real frame in its slot, or a gap frame (section 5.8). -/
inductive ItemKind where
  | real (slot : SlotNo)
  | gap (frame : GapFrame)
deriving DecidableEq, Repr

/-- How far the item in service is: its late fill waits for the SPLICE burst already granted for its frame (R80, R99), it waits under R78,
or it is being sent with so many positions already put on the port. -/
inductive Stage where
  | filling
  | waiting
  | sending (sent : Nat)
deriving DecidableEq, Repr

/-- The item in service (section 5.1). -/
structure Item where
  kind : ItemKind
  due : Due
  stage : Stage
deriving DecidableEq, Repr

/-- One entry of the restamp table (R84). -/
structure Restamp where
  counter : BitVec 4
  fresh : Bool
deriving DecidableEq, Repr

/-- The release scheduler and the emission unit (section 5.1). `output` holds the cells given to the output port, the one now leaving
first; `held` is a cell read by EMIT that waits for the port. -/
structure Emission where
  buffer : List SlotNo
  lastAdmitted : Option Due
  lastReleased : Option Released
  gapRef : Option GapRef
  credits : Nat
  item : Option Item
  gaps : List GapFrame
  restamp : Vector Restamp 4095
  output : List Bytes
  held : Option Bytes
deriving DecidableEq, Repr

/-! ### Chapter 6: site memory and the store arbiter -/

/-- The five store requestors, in the fixed order of R97. -/
inductive Requestor where
  | emit | intakeA | intakeB | splice | load
deriving DecidableEq, Repr

/-- What a burst reads or writes (R96): EMIT reads a position of a frame slot (counted from 0); an intake writes a cell into one; SPLICE
writes a replacing cell for a programme into one; LOAD writes a clip cell into a position of a block. -/
inductive Target where
  | slot (slot : SlotNo) (pos : Fin 256)
  | intake (slot : SlotNo) (pos : Fin 256) (cell : Bytes)
  | splice (slot : SlotNo) (pos : Fin 256) (prog : ProgNo) (cell : Bytes)
  | block (block : BlockNo) (pos : Fin 4096) (cell : Bytes)
deriving DecidableEq, Repr

/-- The burst in progress: who has it, where it goes, and whether its effect is kept at completion (R90, R94, R99). -/
structure Burst where
  req : Requestor
  target : Target
  keep : Bool
deriving DecidableEq, Repr

/-- The store arbiter (section 6.3): priorities and waiting requests in the fixed order, and the burst in progress. -/
structure Arbiter where
  initial : Vector Nat 5
  effective : Vector Nat 5
  waiting : Vector (Option Target) 5
  current : Option Burst
deriving DecidableEq, Repr

/-- The contents of site memory: bytes by address in one canonical form (addresses rising, no byte equal to what an unlisted address reads
as). Machine/Ops.lean lays the two pools out and holds the reads and writes. -/
abbrev SiteMemory := List Host.Cell

/-! ### Chapter 7: the clip catalogue and loader -/

/-- States of a catalogue record (R104). -/
inductive ClipState where
  | absent | loading | ready | corrupt
deriving DecidableEq, Repr

/-- A catalogue record (R103). -/
structure ClipRecord where
  id : ClipId
  state : ClipState
  length : Nat
  blocks : List BlockNo
  digest : BitVec 32
  loaded : Nat
  ignored : Nat
  damContinuity : Bool
  damFifo : Bool
  damDigest : Bool
  ctx : Option CtxNo
  use : Nat
  play : Nat
deriving DecidableEq, Repr

/-- Where a load takes its cells from (R106). -/
inductive LoadSource where
  | link
  | feed (f : Feed) (sid : Sid)
deriving DecidableEq, Repr

/-- A bound load context (R108). -/
structure LoadCtx where
  clip : ClipId
  source : LoadSource
  accepted : Nat
  expected : Option (BitVec 4)
  digest : BitVec 32
deriving DecidableEq, Repr

/-- An entry of the load FIFO (R109). `live` is cleared when its load is aborted while its own burst is in progress (R113). -/
structure LoadEntry where
  cell : Bytes
  ctx : CtxNo
  pos : Nat
  live : Bool
deriving DecidableEq, Repr

/-- The catalogue, the load contexts, the load FIFO and the free list of clip blocks (R103, R108, R109, section 6.2). -/
structure Catalogue where
  places : Vector (Option ClipRecord) 64
  ctxs : Vector (Option LoadCtx) 4
  fifo : List LoadEntry
  freeList : List BlockNo
deriving DecidableEq, Repr

/-! ### Chapter 8: slot table and break lists -/

/-- An entry of the slot table (R118). -/
structure SlotEntry where
  enabled : Bool
  version : Byte
  list : Option ListNo
  filler : Option ClipId
deriving DecidableEq, Repr

/-- States of a linked ring entry (R122). -/
inductive EntryState where
  | idle | inUse | retiring
deriving DecidableEq, Repr

/-- A break in a ring entry's holder set: its programme and the break's own number. -/
structure Holder where
  prog : ProgNo
  brk : Nat
deriving DecidableEq, Repr

/-- A linked entry of the entry pool (R121). Its next and previous are its neighbours in its list's ring. -/
structure RingEntry where
  list : ListNo
  clip : ClipId
  state : EntryState
  holders : List Holder
deriving DecidableEq, Repr

/-- The entry pool and the 32 break lists (R121). A ring is the list of its entries in ring order, its head first. -/
structure BreakLists where
  pool : Vector (Option RingEntry) 256
  rings : Vector (List EntryNo) 32
deriving DecidableEq, Repr

/-! ### Chapter 9: programmes, cues and breaks -/

/-- The settings of a programme table entry (R133). -/
structure ProgrammeSet where
  enabled : Bool
  spliceEnable : Bool
  cueSid : Option Sid
  comps : Vector (Option Sid) 8
  preroll : Nat
deriving DecidableEq, Repr

/-- Causes of an as-run record (section 1.7) and of a break (section 9.4). -/
inductive Cause where
  | none | cueLate | overlap | queueFull | slotDisabled | versionMismatch | declined | expired
  | programmeReset | siteRestart | timeLost | cancelCue
deriving DecidableEq, Repr

/-- A cue's fallback (section 1.4). -/
inductive Fallback where
  | pass | blank
deriving DecidableEq, Repr

/-- A queued cue's decision (R133). -/
inductive Decision where
  | query
  | armed (list : Option ListNo) (filler : Option ClipId)
  | blank
deriving DecidableEq, Repr

/-- A cue in a programme's queue (R133, R139). `site` is set for SITE mode; `cause` is that of a fallback that armed it blank. -/
structure Cue where
  id : CueId
  out : FrameNo
  length : Nat
  slotCode : Byte
  version : Byte
  site : Bool
  fallback : Fallback
  confirm : Bool
  carrier : FrameNo
  decision : Decision
  cause : Cause
deriving DecidableEq, Repr

/-- A clip item of a break or record (section 9.4, section 1.7). -/
structure ClipItem where
  clip : ClipId
  played : Nat
  completed : Bool
deriving DecidableEq, Repr

/-- Where a break's replacing cells come from (R149). -/
inductive Source where
  | list | filler | null
deriving DecidableEq, Repr

/-- A break context (section 9.4). `id` is the model's own number of the break; `playing` is the clip whose play count the break has
raised; `marked` holds the frame numbers marked, so that the frames of the range that never were can be counted (R146). -/
structure Break where
  id : Nat
  cue : CueId
  out : FrameNo
  endF : FrameNo
  slotCode : Byte
  confirm : Bool
  blank : Bool
  list : Option ListNo
  filler : Option ClipId
  cause : Cause
  start : Option EntryNo
  current : Option EntryNo
  source : Source
  playing : Option ClipId
  clipPos : Nat
  lastMarked : Option FrameNo
  marked : List FrameNo
  outstanding : Nat
  work : Nat
  items : List ClipItem
  tally : Bool
  draft : Option DraftNo
deriving DecidableEq, Repr

/-- The live part of a programme table entry (R133). -/
structure Programme where
  queue : List Cue
  active : Option Break
  ended : List Break
  closed : List Break
  expired : List CueId
deriving DecidableEq, Repr

/-- The splice engine: its programmes, the splice work queue (R147), and the number the next break takes. -/
structure Splice where
  progs : Vector Programme 8
  queue : List SlotNo
  nextBreak : Nat
deriving DecidableEq, Repr

/-! ### Chapter 10: as-run records and counters -/

/-- Outcomes of an as-run record (section 1.7). -/
inductive AsRunOutcome where
  | played | playedShort | blanked | passed | refused | cancelled | aborted
deriving DecidableEq, Repr

/-- An emission instant: seconds and ticks (section 1.7). -/
structure Instant where
  secs : BitVec 32
  ticks : Nat
deriving DecidableEq, Repr

/-- A completed as-run record (section 1.7). -/
structure AsRunRecord where
  number : BitVec 32
  prog : ProgNo
  cue : CueId
  slotCode : Byte
  outcome : AsRunOutcome
  cause : Cause
  confirm : Bool
  standby : Bool
  muted : Bool
  lateFill : Bool
  filler : Bool
  moreClips : Bool
  first : Option Instant
  last : Option Instant
  emitted : Nat
  lost : Nat
  items : List ClipItem
deriving DecidableEq, Repr

/-- A draft (section 10.2). -/
structure Draft where
  prog : ProgNo
  cue : CueId
  slotCode : Byte
  confirm : Bool
  blank : Bool
  cause : Cause
  first : Option Instant
  last : Option Instant
  emitted : Nat
  lost : Nat
  outstanding : Nat
  standby : Bool
  muted : Bool
  lateFill : Bool
  filler : Bool
  moreClips : Bool
  closed : Bool
  items : List ClipItem
deriving DecidableEq, Repr

/-- The as-run unit (sections 10.1 to 10.3). -/
structure AsRun where
  drafts : Vector (Option Draft) 32
  queue : List AsRunRecord
  next : BitVec 32
  lost : Nat
deriving DecidableEq, Repr

/-- Counter classes (R164). -/
inductive CountClass where
  | none | frameComplete | frameDecided | cellDrop | continuity | emission | cue | clipCell | storeGrant | storePass
  | time | link | releaseDepth | slotBusy
deriving DecidableEq, Repr

/-- One counter of the accounting unit (section 10.5): 48-bit value. -/
structure Counter where
  cls : CountClass
  selector : Byte
  value : Nat
deriving DecidableEq, Repr

/-! ### Chapter 11: management ports and site control -/

/-- Receiver states (R170). -/
inductive RxState where
  | seek | length | header | body | check
deriving DecidableEq, Repr

/-- A port's receiver: its state, the bytes of the frame so far (after the start byte), and the ticks since the last byte. -/
structure Receiver where
  state : RxState
  bytes : Bytes
  silence : Nat
deriving DecidableEq, Repr

/-- A request frame: kind, tag and body (section 1.6). -/
structure Request where
  kind : Byte
  tag : Byte
  body : Bytes
deriving DecidableEq, Repr

/-- Status codes (section 1.9). -/
inductive Status where
  | ok | okClamped | deferred | unknownKind | badLength | badField | notReleased | notInControl | lockedOut | wrongState
  | busy | noSpace | notFound | inUse | tooLate | configInvalid
deriving DecidableEq, Repr

/-- The request in service: the frame taken, and the status of the check of R172, steps 1 to 4, that failed at the taking. -/
structure Service where
  frame : Request
  refusal : Option Status
deriving DecidableEq, Repr

/-- A frame of a transmitter: a reply or an Attention (R180). -/
structure TxFrame where
  attention : Bool
  kind : Byte
  tag : Byte
  body : Bytes
deriving DecidableEq, Repr

/-- A port's transmitter (R180): the frame being sent, and the waiting reply and Attention in the order of sending. -/
structure Transmitter where
  sending : Option TxFrame
  waiting : List TxFrame
deriving DecidableEq, Repr

/-- One management port (section 11.1). -/
structure PortState where
  rx : Receiver
  queue : List Request
  service : Option Service
  tx : Transmitter
  mask : BitVec 16
  summary : Bool
deriving DecidableEq, Repr

/-- Who holds control (R176). -/
inductive Control where
  | network | local_
deriving DecidableEq, Repr

/-- The device phase (R173). -/
inductive Phase where
  | held | running
deriving DecidableEq, Repr

/-! ### The machine -/

/-- The phase, the timebase and the configuration that SiteRestart keeps. -/
structure Site where
  phase : Phase
  tb : Timebase
  timing : Timing
  hostChoice : HostChoice
  windows : Vector Window 16
  defaultAction : DefaultAction
  selMode : SelMode
  pairWait : Nat
  slotTable : Vector SlotEntry 256
  progs : Vector ProgrammeSet 8
deriving DecidableEq, Repr

/-- Everything the stream, the requests and the site memory change. `latched` is the latched part of the condition word (R11). -/
structure Device where
  intakeA : Intake
  intakeB : Intake
  sel : Selector
  em : Emission
  slots : Vector Record 40
  mem : SiteMemory
  arb : Arbiter
  cat : Catalogue
  lists : BreakLists
  splice : Splice
  asrun : AsRun
  counters : Vector Counter 8
  latched : BitVec 16
  net : PortState
  maint : PortState
deriving DecidableEq, Repr

/-- The whole state: the commands waiting, first in first out; who holds control, and lockout (R176, R177); the site; the device. -/
structure State where
  pending : List Instr
  control : Control
  lockout : Bool
  site : Site
  dev : Device
deriving DecidableEq, Repr

/-! ### After the reset line -/

/-- No damage. -/
def Damage.empty : Damage := ⟨false, false, false, false, false, false⟩

/-- The record of a FREE slot (R90). -/
def Record.empty : Record where
  state := .free
  feed := none
  number := none
  stamp := none
  declared := 0
  marker := []
  written := 0
  running := 0xFFFFFFFF
  expected := 0
  damage := Damage.empty
  headers := []
  cues := []
  completed := none
  due := none
  cursor := none
  work := []
  marks := []

/-- An intake after a reset line (section 2.1). -/
def Intake.reset : Intake where
  delin := .hunt
  since := 0
  found := 0
  misses := 0
  silence := 0
  cellSoFar := []
  arrivals := []
  fifo := []
  assembly := none
  continuity := []

/-- A window after a reset line (R25). -/
def Window.reset : Window := ⟨false, .both, .carry, 0, 0, none⟩

/-- The timebase after a reset line (section 4.1). -/
def Timebase.reset : Timebase where
  secs := 0
  ticks := 0
  disc := .unset
  good := 0
  outliers := 0
  holdover := 0
  label := none
  pulseSeen := false
  present := false
  lockWindow := 10
  pulsesToLock := 4
  holdoverLimit := 600
  era := 0
  checkDue := false

/-- The site timing settings after a reset line (section 5.2). -/
def Timing.reset : Timing where
  mode := .sfnStrict
  offset := 0
  latency := 0
  guard := 50000
  horizon := 20000000
  period := 0
  tolerance := 10000
  credits := 2
  region := 0

/-- The restamp table after a reset line and after SiteRestart (R84). -/
def Restamp.resetTable : Vector Restamp 4095 := Vector.replicate 4095 ⟨0, true⟩

/-- The release scheduler and the emission unit after a reset line (section 5.1). -/
def Emission.reset : Emission where
  buffer := []
  lastAdmitted := none
  lastReleased := none
  gapRef := none
  credits := 2
  item := none
  gaps := []
  restamp := Restamp.resetTable
  output := []
  held := none

/-- The default initial priorities (R101). -/
def Arbiter.defaults : Vector Nat 5 := #v[0, 1, 1, 3, 6]

/-- The arbiter after a reset line (R99, R101). -/
def Arbiter.reset : Arbiter where
  initial := Arbiter.defaults
  effective := Arbiter.defaults
  waiting := Vector.replicate 5 none
  current := none

/-- The catalogue after a reset line (R95, R103, R108, R109). -/
def Catalogue.reset : Catalogue where
  places := Vector.replicate 64 none
  ctxs := Vector.replicate 4 none
  fifo := []
  freeList := List.finRange 1024

/-- A slot table entry after a reset line (R118). -/
def SlotEntry.reset : SlotEntry := ⟨false, 0, none, none⟩

/-- The break lists after a reset line (R121). -/
def BreakLists.reset : BreakLists := ⟨Vector.replicate 256 none, Vector.replicate 32 []⟩

/-- A programme's settings after a reset line (R133). -/
def ProgrammeSet.reset : ProgrammeSet := ⟨false, false, none, Vector.replicate 8 none, 25⟩

/-- A programme's live part after a reset line (R133). -/
def Programme.reset : Programme := ⟨[], none, [], [], []⟩

/-- The as-run unit after a reset line (R155, R161). -/
def AsRun.reset : AsRun := ⟨Vector.replicate 32 none, [], 0, 0⟩

/-- A counter after a reset line (R164). -/
def Counter.reset : Counter := ⟨.none, 0, 0⟩

/-- A management port after a reset line (section 11.1). -/
def PortState.reset : PortState where
  rx := ⟨.seek, [], 0⟩
  queue := []
  service := none
  tx := ⟨none, []⟩
  mask := 0
  summary := false

/-- The site after a reset line. -/
def Site.reset : Site where
  phase := .held
  tb := Timebase.reset
  timing := Timing.reset
  hostChoice := .onAir
  windows := Vector.replicate 16 Window.reset
  defaultAction := .carry
  selMode := .primaryA
  pairWait := 200000
  slotTable := Vector.replicate 256 SlotEntry.reset
  progs := Vector.replicate 8 ProgrammeSet.reset

/-- The device after a reset line. -/
def Device.reset : Device where
  intakeA := Intake.reset
  intakeB := Intake.reset
  sel := ⟨[], []⟩
  em := Emission.reset
  slots := Vector.replicate 40 Record.empty
  mem := []
  arb := Arbiter.reset
  cat := Catalogue.reset
  lists := BreakLists.reset
  splice := ⟨Vector.replicate 8 Programme.reset, [], 0⟩
  asrun := AsRun.reset
  counters := Vector.replicate 8 Counter.reset
  latched := 0
  net := PortState.reset
  maint := PortState.reset

/-- The machine right after reset: the phase is HELD, control is NETWORK with lockout off, and no command waits. -/
def State.reset : State where
  pending := []
  control := .network
  lockout := false
  site := Site.reset
  dev := Device.reset

end Sys2Proof.Machine
end

