-- ==== Sys2Proof/Machine/Ops.lean ====
section
/-! DEFINITION. The shared operations below the blocks: bytes and byte order, the three check codes, cell headers, markers,
frame numbers, fixed tables, site time, and the bytes of site memory. -/

namespace Sys2Proof.Machine

/-! ### Bytes (section 1.6: high byte first) -/

/-- `n` as `k` bytes, high byte first. -/
def beBytes : Nat → Nat → Bytes
  | 0, _ => []
  | k + 1, n => BitVec.ofNat 8 (n / 256 ^ k) :: beBytes k n

/-- The number that bytes spell, high byte first. -/
def beNat (b : Bytes) : Nat := b.foldl (fun acc x => acc * 256 + x.toNat) 0

/-- Byte `i` of a run; 0 past its end. -/
def byteAt (b : Bytes) (i : Nat) : Byte := b.getD i 0

/-- The unsigned field of `len` bytes at offset `off`. -/
def fieldAt (b : Bytes) (off len : Nat) : Nat := beNat ((b.drop off).take len)

/-- A signed number as a 32-bit two's complement number. -/
def toTwos32 (i : Int) : Nat := (i % 4294967296).toNat

/-- The signed number a 32-bit two's complement field holds. -/
def ofTwos32 (n : Nat) : Int := if n < 2147483648 then n else (n : Int) - 4294967296

/-! ### Check codes (section 1.1) -/

/-- One bit into a check register: shift left, and XOR the polynomial when the bit shifted out differs from the input bit. -/
def crcBit {w : Nat} (poly reg : BitVec w) (bit : Bool) : BitVec w :=
  if reg.msb != bit then (reg <<< 1) ^^^ poly else reg <<< 1

/-- One byte into a check register, most significant bit first. -/
def crcByte {w : Nat} (poly reg : BitVec w) (b : Byte) : BitVec w :=
  [7, 6, 5, 4, 3, 2, 1, 0].foldl (fun r i => crcBit poly r (b.getLsbD i)) reg

/-- Bytes into a check register, in order. -/
def crcBytes {w : Nat} (poly reg : BitVec w) (b : Bytes) : BitVec w := b.foldl (crcByte poly) reg

/-- The header check (section 1.1). -/
def headerCheck (b : Bytes) : BitVec 8 := crcBytes 0x07#8 0x00#8 b

/-- The link check (section 1.1). -/
def linkCheck (b : Bytes) : BitVec 16 := crcBytes 0x1021#16 0xFFFF#16 b

/-- The frame check's register before any byte (section 1.1). -/
def frameCheckInit : BitVec 32 := 0xFFFFFFFF

/-- More bytes into a frame check or a clip digest (R4, R8). -/
def frameCheckMore (reg : BitVec 32) (b : Bytes) : BitVec 32 := crcBytes 0x04C11DB7#32 reg b

/-! ### Cells (section 1.2) -/

/-- The qualifier a code stands for. -/
def qualifierOf (code : BitVec 2) : Qualifier :=
  if code = 0 then .payload else if code = 1 then .signal else if code = 2 then .marker else .null

/-- The code of a qualifier. -/
def qualifierCode : Qualifier → BitVec 2
  | .payload => 0
  | .signal => 1
  | .marker => 2
  | .null => 3

/-- The header fields of a received cell; bits shown as sent as zero are not examined (R1). -/
def parseHeader (c : Bytes) : Header where
  sid := byteAt c 1 ++ (byteAt c 2).extractLsb' 4 4
  qual := qualifierOf ((byteAt c 2).extractLsb' 2 2)
  disc := (byteAt c 2).getLsbD 1
  cont := (byteAt c 3).extractLsb' 4 4
  aux := byteAt c 4
  index := byteAt c 5 ++ byteAt c 6

/-- The payload of a cell. -/
def payloadOf (c : Bytes) : Bytes := c.drop 8

/-- Whether a received cell header is valid (R2). -/
def headerValid (c : Bytes) : Bool :=
  let h := parseHeader c
  headerCheck ((c.drop 1).take 6) == byteAt c 7
    && ((h.sid == Config.markerSid) == (h.qual == .marker))
    && (h.sid == Config.markerSid || (1 ≤ h.index.toNat && h.index.toNat ≤ Config.cellsPerSlot))

/-- Header bytes 1 to 6 from the fields, the sent-as-zero bits zero (R3). -/
def headerFields (h : Header) : Bytes :=
  [h.sid.extractLsb' 4 8,
   h.sid.extractLsb' 0 4 ++ qualifierCode h.qual ++ BitVec.ofBool h.disc ++ 0#1,
   h.cont ++ 0#4,
   h.aux,
   h.index.extractLsb' 8 8,
   h.index.extractLsb' 0 8]

/-- The header of a cell the device sends, computed afresh (R3). -/
def formHeader (h : Header) : Bytes :=
  Config.syncByte :: headerFields h ++ [headerCheck (headerFields h)]

/-- The header of a null cell the device places in position `pos` (R3). -/
def nullHeader (pos : Nat) : Header := ⟨Config.nullSid, .null, false, 0, 0, BitVec.ofNat 16 pos⟩

/-- A null cell the device places in position `pos` (R3). -/
def nullCell (pos : Nat) : Bytes := formHeader (nullHeader pos) ++ List.replicate Config.payloadBytes 0

/-- The fields of a marker's payload (section 1.3). -/
structure MarkerFields where
  number : FrameNo
  stampSecs : Byte
  stampTicks : Nat
  count : Nat
  check : BitVec 32
  gap : Bool
deriving DecidableEq, Repr

/-- The fields of a received marker cell (R5). -/
def parseMarker (c : Bytes) : MarkerFields :=
  let p := payloadOf c
  { number := BitVec.ofNat 24 (fieldAt p 0 3)
    stampSecs := byteAt p 3
    stampTicks := fieldAt p 4 3
    count := fieldAt p 7 2
    check := BitVec.ofNat 32 (fieldAt p 9 4)
    gap := (byteAt p 13).getLsbD 0 }

/-- Whether a marker is ignored with MARKER_BAD (R5). -/
def markerBad (m : MarkerFields) : Bool := m.count == 0 || m.count > Config.cellsPerSlot || m.gap

/-- The marker cell of a gap frame: its number, and the stamp formed from the total tick count `t` (R6). -/
def gapMarker (n : FrameNo) (t : Int) : Bytes :=
  formHeader ⟨Config.markerSid, .marker, false, 0, 0, 0⟩
    ++ beBytes 3 n.toNat
    ++ beBytes 1 ((t / Config.ticksPerSecond) % 256).toNat
    ++ beBytes 3 (t % Config.ticksPerSecond).toNat
    ++ beBytes 2 0
    ++ beBytes 4 0xFFFFFFFF
    ++ [0x01]
    ++ List.replicate 154 0

/-! ### Frame numbers (00_scope.md, section 5) -/

/-- Frame `n` is after frame `m`. -/
def isAfter (n m : FrameNo) : Bool := 1 ≤ (n - m).toNat && (n - m).toNat ≤ 8388607

/-- Frame `n` is before frame `m`. -/
def isBefore (n m : FrameNo) : Bool := isAfter m n

/-- Frame `k` lies in the range [a, e). -/
def inRange (k a e : FrameNo) : Bool := (k - a).toNat < (e - a).toNat

/-- Two ranges share a frame: [a, a + la) and [b, b + lb). -/
def rangesMeet (a : FrameNo) (la : Nat) (b : FrameNo) (lb : Nat) : Bool :=
  0 < la && 0 < lb && ((b - a).toNat < la || (a - b).toNat < lb)

/-! ### Fixed tables -/

/-- A table with the entry at `i` changed by `f`. -/
def vmodify {α : Type} {n : Nat} (v : Vector α n) (i : Fin n) (f : α → α) : Vector α n := v.set i (f v[i])

/-- A table with every entry changed by `f`. -/
def vmap {α β : Type} {n : Nat} (f : α → β) (v : Vector α n) : Vector β n :=
  ⟨⟨v.toList.map f⟩, by simp⟩

/-- The lowest index whose entry has property `p`. -/
def vfind {α : Type} {n : Nat} (v : Vector α n) (p : α → Bool) : Option (Fin n) :=
  (List.finRange n).find? (fun i => p v[i])

/-- How many entries have property `p`. -/
def vcount {α : Type} {n : Nat} (v : Vector α n) (p : α → Bool) : Nat := v.toList.countP p

/-! ### Site time -/

/-- Site time as the total S x 10,000,000 + T (R49). -/
def Timebase.now (tb : Timebase) : Int := tb.secs.toNat * Config.ticksPerSecond + tb.ticks

/-- An instant counted on through the wraps of S, so that a due instant held across a wrap still arrives (case 5 of section 5.5) (DEDUCED,
entry 5). -/
def Due.unwrapped (d : Due) : Int := d.total + d.era * Config.ticksPerEra

/-- Site time counted on through the wraps of S (DEDUCED, entry 5). -/
def Timebase.nowUnwrapped (tb : Timebase) : Int := tb.now + tb.era * Config.ticksPerEra

/-- The instant `after` ticks past due instant `d` has arrived. -/
def arrived (tb : Timebase) (d : Due) (after : Int) : Bool := d.unwrapped + after ≤ tb.nowUnwrapped

/-- The instant `after` ticks past due instant `d` has passed. -/
def passed (tb : Timebase) (d : Due) (after : Int) : Bool := d.unwrapped + after < tb.nowUnwrapped

/-- Site time as an emission instant (R158). -/
def Timebase.instant (tb : Timebase) : Instant := ⟨tb.secs, tb.ticks⟩

/-- A due instant as an emission instant: seconds modulo 2^32 and the remaining ticks (R158). -/
def Due.instant (d : Due) : Instant :=
  ⟨BitVec.ofInt 32 (d.total / Config.ticksPerSecond), (d.total % Config.ticksPerSecond).toNat⟩

/-- Site time is trusted (section 4.1). -/
def Timebase.trusted (tb : Timebase) : Bool := tb.disc == .locked || tb.disc == .holdover

/-! ### Site memory -/

/-- What an address that nothing has written reads as (DESIGN CHOICE, entry 13). -/
def unwrittenByte : Byte := 0

/-- The form every site memory has: addresses strictly rising, and no entry equal to what an unlisted address reads as. -/
def memWf : SiteMemory → Bool
  | [] => true
  | [(_, v)] => v != unwrittenByte
  | (a, v) :: (b, w) :: rest => v != unwrittenByte && decide (a < b) && memWf ((b, w) :: rest)

/-- The byte at an address. -/
def memRead : SiteMemory → Nat → Byte
  | [], _ => unwrittenByte
  | (a, v) :: rest, k => if a = k then v else memRead rest k

/-- Site memory with one byte written. -/
def memWrite : SiteMemory → Nat → Byte → SiteMemory
  | [], k, v => if v = unwrittenByte then [] else [(k, v)]
  | (a, w) :: rest, k, v =>
    if k < a then (if v = unwrittenByte then (a, w) :: rest else (k, v) :: (a, w) :: rest)
    else if k = a then (if v = unwrittenByte then rest else (a, v) :: rest)
    else (a, w) :: memWrite rest k v

/-- Site memory with a run of bytes written from address `k` on. -/
def memWriteRun : SiteMemory → Nat → Bytes → SiteMemory
  | m, _, [] => m
  | m, k, v :: vs => memWriteRun (memWrite m k v) (k + 1) vs

/-- `n` bytes read from address `k` on. -/
def memReadRun (m : SiteMemory) (k n : Nat) : Bytes := (List.range n).map (fun i => memRead m (k + i))

/-- The address of a frame slot position, the positions of a slot and the slots following one another from address 0 (section 6.1: 40
slots of 256 cells of 176 bytes) (DESIGN CHOICE, entry 14). -/
def slotAddress (slot : SlotNo) (pos : Fin 256) : Nat := (slot.val * 256 + pos.val) * 176

/-- The address of a clip cell position; the block pool follows the slot pool (section 6.2: 1,024 blocks of 4,096 cells of 169 bytes)
(DESIGN CHOICE, entry 14). -/
def blockAddress (block : BlockNo) (pos : Fin 4096) : Nat := 1802240 + (block.val * 4096 + pos.val) * 169

/-- What the burst of a target leaves in site memory: a written cell stands in its position, and a read changes nothing (R90, R96). -/
def Target.store (t : Target) (m : SiteMemory) : SiteMemory :=
  match t with
  | .slot _ _ => m
  | .intake i pl cell => memWriteRun m (slotAddress i pl) cell
  | .splice i pl _ cell => memWriteRun m (slotAddress i pl) cell
  | .block b i cell => memWriteRun m (blockAddress b i) cell

/-- A frame slot position, counted from 1, as the number of a place in the slot. -/
def slotPlace (pos : Nat) : Option (Fin 256) :=
  if h : pos - 1 < 256 then (if 0 < pos then some ⟨pos - 1, h⟩ else none) else none

/-- The block position of clip cell `j` of a clip with these blocks (R92). -/
def clipPlace (blocks : List BlockNo) (j : Nat) : Option (BlockNo × Fin 4096) :=
  match blocks[j / 4096]? with
  | some b => some (b, ⟨j % 4096, Nat.mod_lt _ (by decide)⟩)
  | none => none

end Sys2Proof.Machine
end

