-- ==== Sys2Proof/Machine/Flags.lean ====
section
/-! DEFINITION. What is derived from the state at every instant: the condition word, the mute causes and the output mode, a
programme's state, and the counts of slots by state; and the codes by which the messages name states. -/

namespace Sys2Proof.Machine

/-! ### Parts of the device by name -/

/-- The intake of a feed. -/
def Device.intake (d : Device) : Feed → Intake
  | .a => d.intakeA
  | .b => d.intakeB

/-- The device with one intake replaced. -/
def Device.setIntake (d : Device) (f : Feed) (i : Intake) : Device :=
  match f with
  | .a => { d with intakeA := i }
  | .b => { d with intakeB := i }

/-- A management port. -/
def Device.port (d : Device) : Port → PortState
  | .network => d.net
  | .maintenance => d.maint

/-- The device with one management port replaced. -/
def Device.setPort (d : Device) (p : Port) (x : PortState) : Device :=
  match p with
  | .network => { d with net := x }
  | .maintenance => { d with maint := x }

/-- The device with one frame record changed. -/
def Device.updSlot (d : Device) (i : SlotNo) (f : Record → Record) : Device :=
  { d with slots := vmodify d.slots i f }

/-- The device with the live part of one programme changed. -/
def Device.updProg (d : Device) (p : ProgNo) (f : Programme → Programme) : Device :=
  { d with splice := { d.splice with progs := vmodify d.splice.progs p f } }

/-- The device with its emission unit replaced. -/
def Device.setEm (d : Device) (e : Emission) : Device := { d with em := e }

/-- The device with its arbiter replaced. -/
def Device.setArb (d : Device) (a : Arbiter) : Device := { d with arb := a }

/-- The device with its catalogue replaced. -/
def Device.setCat (d : Device) (c : Catalogue) : Device := { d with cat := c }

/-- The device with its break lists replaced. -/
def Device.setLists (d : Device) (l : BreakLists) : Device := { d with lists := l }

/-- The device with its as-run unit replaced. -/
def Device.setAsRun (d : Device) (a : AsRun) : Device := { d with asrun := a }

/-- The state with its device replaced. -/
def State.setDev (s : State) (d : Device) : State := { s with dev := d }

/-- The state with its site replaced. -/
def State.setSite (s : State) (x : Site) : State := { s with site := x }

/-! ### Output mode (R75) -/

/-- The mute cause TIME (R75). -/
def muteTime (x : Site) : Bool := x.timing.mode == .sfnStrict && !x.tb.trusted

/-- An intake is in SYNC. -/
def Intake.inSync (i : Intake) : Bool := i.delin == .sync

/-- The mute cause NO_FEED (R75). -/
def muteNoFeed (d : Device) : Bool := !d.intakeA.inSync && !d.intakeB.inSync

/-- The mute cause HOST (R75). -/
def muteHost (x : Site) : Bool := x.hostChoice == .mute

/-- The output mode (R75). -/
def outputMode (x : Site) (d : Device) : OutputMode :=
  if x.hostChoice == .standby then .standby
  else if muteHost x || muteTime x || muteNoFeed d then .muted
  else .onAir

/-! ### Programmes -/

/-- A cue is a QUERY (R139). -/
def Cue.isQuery (c : Cue) : Bool := c.decision == .query

/-- A programme is CUED or IN_BREAK, or has an ended break (R133, R134). -/
def Programme.busy (p : Programme) : Bool := p.active.isSome || !p.queue.isEmpty || !p.ended.isEmpty

/-- Tally line `p` (R152). -/
def Programme.tally (p : Programme) : Bool :=
  p.active.any (·.tally) || p.ended.any (·.tally) || p.closed.any (·.tally)

/-! ### Conditions (R11) -/

/-- A condition word with only bit `n`, or none. -/
def bitIf (c : Bool) (n : Nat) : BitVec 16 := if c then 1#16 <<< n else 0

/-- The bits of the latched conditions (R11). -/
def latchedBits : BitVec 16 := 0x1F00

/-- The bits of all twelve conditions (R11). -/
def conditionBits : BitVec 16 := 0x1F7F

/-- ASRUN_LOST (R11). -/
def asrunLostBit : BitVec 16 := 0x0100
/-- CLIP_DONE (R11). -/
def clipDoneBit : BitVec 16 := 0x0200
/-- COUNTER_WRAP (R11). -/
def counterWrapBit : BitVec 16 := 0x0400
/-- TIME_STEP (R11). -/
def timeStepBit : BitVec 16 := 0x0800
/-- CONTROL_CHANGE (R11). -/
def controlChangeBit : BitVec 16 := 0x1000

/-- CUE_QUERY is present (R139). -/
def cueQuery (d : Device) : Bool := d.splice.progs.toList.any (fun p => p.queue.any Cue.isQuery)

/-- The level conditions, as their causes give them (R11). -/
def levelWord (x : Site) (d : Device) : BitVec 16 :=
  bitIf (!d.intakeA.inSync) 0 ||| bitIf (!d.intakeB.inSync) 1 ||| bitIf (!x.tb.present) 2
    ||| bitIf (!x.tb.trusted) 3 ||| bitIf (outputMode x d != .onAir) 4 ||| bitIf (cueQuery d) 5
    ||| bitIf (!d.asrun.queue.isEmpty) 6

/-- The condition word (R11). -/
def conditionWord (x : Site) (d : Device) : BitVec 16 := levelWord x d ||| (d.latched &&& latchedBits)

/-! ### Slots -/

/-- How many slots are in a state (R89). -/
def slotCount (d : Device) (st : SlotState) : Nat := vcount d.slots (fun r => r.state == st)

/-- How many slots are not FREE (R89). -/
def slotsBusy (d : Device) : Nat := vcount d.slots (fun r => r.state != .free)

/-! ### Counter classes (R164) -/

/-- The class a code names. -/
def classOfCode : Nat → Option CountClass
  | 0 => some .none
  | 1 => some .frameComplete
  | 2 => some .frameDecided
  | 3 => some .cellDrop
  | 4 => some .continuity
  | 5 => some .emission
  | 6 => some .cue
  | 7 => some .clipCell
  | 8 => some .storeGrant
  | 9 => some .storePass
  | 10 => some .time
  | 11 => some .link
  | 12 => some .releaseDepth
  | 13 => some .slotBusy
  | _ => none

/-- The code of a class. -/
def classCode : CountClass → Nat
  | .none => 0
  | .frameComplete => 1
  | .frameDecided => 2
  | .cellDrop => 3
  | .continuity => 4
  | .emission => 5
  | .cue => 6
  | .clipCell => 7
  | .storeGrant => 8
  | .storePass => 9
  | .time => 10
  | .link => 11
  | .releaseDepth => 12
  | .slotBusy => 13

/-- The selector bits a class names. -/
def classBits : CountClass → Byte
  | .none => 0x00
  | .frameComplete => 0x0F
  | .frameDecided => 0x7F
  | .cellDrop => 0x1F
  | .continuity => 0x03
  | .emission => 0x3F
  | .cue => 0x7F
  | .clipCell => 0x0F
  | .storeGrant => 0x1F
  | .storePass => 0x1F
  | .time => 0x0F
  | .link => 0x0F
  | .releaseDepth => 0x03
  | .slotBusy => 0x03

/-! ### Codes in messages -/

/-- Status codes (section 1.9). -/
def Status.code : Status → Byte
  | .ok => 0x00
  | .okClamped => 0x01
  | .deferred => 0x02
  | .unknownKind => 0x10
  | .badLength => 0x11
  | .badField => 0x12
  | .notReleased => 0x20
  | .notInControl => 0x21
  | .lockedOut => 0x22
  | .wrongState => 0x23
  | .busy => 0x30
  | .noSpace => 0x31
  | .notFound => 0x32
  | .inUse => 0x33
  | .tooLate => 0x34
  | .configInvalid => 0x35

/-- Outcome codes (section 1.7). -/
def AsRunOutcome.code : AsRunOutcome → Nat
  | .played => 1
  | .playedShort => 2
  | .blanked => 3
  | .passed => 4
  | .refused => 5
  | .cancelled => 6
  | .aborted => 7

/-- Cause codes (section 1.7). -/
def Cause.code : Cause → Nat
  | .none => 0
  | .cueLate => 1
  | .overlap => 2
  | .queueFull => 3
  | .slotDisabled => 4
  | .versionMismatch => 5
  | .declined => 6
  | .expired => 7
  | .programmeReset => 8
  | .siteRestart => 9
  | .timeLost => 10
  | .cancelCue => 11

/-- Discipline codes (R181). -/
def Discipline.code : Discipline → Nat
  | .unset => 0
  | .acquiring => 1
  | .locked => 2
  | .holdover => 3
  | .expired => 4

/-- Output mode codes (R181). -/
def OutputMode.code : OutputMode → Nat
  | .onAir => 0
  | .muted => 1
  | .standby => 2

/-- Host choice codes (R76, R181). -/
def HostChoice.code : HostChoice → Nat
  | .onAir => 1
  | .mute => 2
  | .standby => 3

/-- Delineation codes (R181). -/
def Delin.code : Delin → Nat
  | .hunt => 0
  | .presync => 1
  | .sync => 2

/-- Clip state codes (section 7.6). -/
def ClipState.code : ClipState → Nat
  | .absent => 0
  | .loading => 1
  | .ready => 2
  | .corrupt => 3

/-- Ring entry state codes (R127). -/
def EntryState.code : EntryState → Nat
  | .idle => 0
  | .inUse => 1
  | .retiring => 2

/-- 1 for set, 0 for clear. -/
def flagCode (b : Bool) : Nat := if b then 1 else 0

end Sys2Proof.Machine
end

