-- ==== Sys2Proof/Machine/Operands.lean ====
section
/-! DEFINITION. The operands of requests: the kinds of section 1.10 with the lengths, phases, control and port each needs, and
the field readers of the request bodies. -/

namespace Sys2Proof.Machine

/-- The request kinds of section 1.10. -/
inductive Kind where
  | readStatus | readIdentity | setMask | clearConditions | takeLocal | returnRemote | claimRemote | setLockout | release
  | siteRestart | queryList | setWindow | setDefaultAction | setSelector | setTimebase | setTime | setSite | setOutputMode
  | setArbiter | clipOpen | clipData | clipAbort | clipDelete | clipInfo | catalogueRead | setSlot | listInsert | listRemove
  | listRead | setProgramme | cueAnswer | programmeReset | asRunFetch | setCounter | snapshotCounters | clearCounters
deriving DecidableEq, Repr

/-- The kind a code names (section 1.10); none for 0x00, 0x70 and a code the index does not assign (R10). -/
def kindOf (code : Byte) : Option Kind :=
  match code.toNat with
  | 0x01 => some .readStatus
  | 0x02 => some .readIdentity
  | 0x03 => some .setMask
  | 0x04 => some .clearConditions
  | 0x05 => some .takeLocal
  | 0x06 => some .returnRemote
  | 0x07 => some .claimRemote
  | 0x08 => some .setLockout
  | 0x09 => some .release
  | 0x0A => some .siteRestart
  | 0x0B => some .queryList
  | 0x10 => some .setWindow
  | 0x11 => some .setDefaultAction
  | 0x18 => some .setSelector
  | 0x20 => some .setTimebase
  | 0x21 => some .setTime
  | 0x28 => some .setSite
  | 0x29 => some .setOutputMode
  | 0x30 => some .setArbiter
  | 0x38 => some .clipOpen
  | 0x39 => some .clipData
  | 0x3A => some .clipAbort
  | 0x3B => some .clipDelete
  | 0x3C => some .clipInfo
  | 0x3D => some .catalogueRead
  | 0x40 => some .setSlot
  | 0x41 => some .listInsert
  | 0x42 => some .listRemove
  | 0x43 => some .listRead
  | 0x48 => some .setProgramme
  | 0x49 => some .cueAnswer
  | 0x4A => some .programmeReset
  | 0x50 => some .asRunFetch
  | 0x51 => some .setCounter
  | 0x52 => some .snapshotCounters
  | 0x53 => some .clearCounters
  | _ => none

/-- The body lengths a kind allows, as its owning chapter gives them (R10). -/
def Kind.lengthOk (k : Kind) (n : Nat) : Bool :=
  match k with
  | .readStatus | .readIdentity | .takeLocal | .returnRemote | .claimRemote | .release | .siteRestart | .queryList
  | .snapshotCounters => n == 0
  | .setMask | .clearConditions => n == 2
  | .setLockout | .setDefaultAction | .setOutputMode | .listRemove | .programmeReset | .asRunFetch | .clearCounters => n == 1
  | .setWindow => n == 11
  | .setSelector => n == 5
  | .setTimebase => n == 7
  | .setTime => n == 4
  | .setSite => n == 27
  | .setArbiter => n == 5
  | .clipOpen => n == 13
  | .clipData => n == 172 || n == 341 || n == 510 || n == 679 || n == 848
  | .clipAbort | .clipDelete | .clipInfo => n == 2
  | .catalogueRead => n == 2
  | .setSlot => n == 7
  | .listInsert => n == 5
  | .listRead => n == 3
  | .setProgramme => n == 24
  | .cueAnswer => n == 6
  | .setCounter => n == 3

/-- The port a kind belongs to, when it belongs to one (R172, step 2). -/
def Kind.portOk (k : Kind) (p : Port) : Bool :=
  match k with
  | .takeLocal | .returnRemote => p == .maintenance
  | .claimRemote | .setLockout => p == .network
  | _ => true

/-- A kind that needs control (section 1.10). -/
def Kind.needsControl : Kind → Bool
  | .readStatus | .readIdentity | .setMask | .clearConditions | .takeLocal | .claimRemote | .setLockout | .queryList
  | .clipInfo | .catalogueRead | .listRead | .snapshotCounters => false
  | _ => true

/-- The status with which a phase refuses a kind, if it does (section 1.10, R173; R106 for ClipOpen with a FEED source). -/
def Kind.phaseRefusal (k : Kind) (ph : Phase) (body : Bytes) : Option Status :=
  match k, ph with
  | .release, .running | .setArbiter, .running => some .wrongState
  | .siteRestart, .held | .queryList, .held | .cueAnswer, .held | .programmeReset, .held => some .notReleased
  | .clipOpen, .held => if byteAt body 9 = 2 then some .notReleased else none
  | _, _ => none

/-- The port that holds control (R176). -/
def Control.port : Control → Port
  | .network => .network
  | .local_ => .maintenance

/-- The first of the checks of R172, steps 1 to 4, that a request fails when it is taken on port `p`. -/
def takingRefusal (ph : Phase) (c : Control) (p : Port) (r : Request) : Option Status :=
  match kindOf r.kind with
  | none => some .unknownKind
  | some k =>
    if !k.lengthOk r.body.length then some .badLength
    else if !k.portOk p then some .wrongState
    else match k.phaseRefusal ph r.body with
      | some st => some st
      | none => if k.needsControl && c.port != p then some .notInControl else none

/-! ### Field readers -/

/-- A flag byte: 0 clear, 1 set. -/
def readFlag (b : Byte) : Option Bool := if b = 0 then some false else if b = 1 then some true else none

/-- A value kept within a range: raised to its bottom, lowered to its top. -/
def clampNat (lo hi v : Nat) : Nat := if v < lo then lo else if hi < v then hi else v

/-- The same for a signed value. -/
def clampInt (lo hi v : Int) : Int := if v < lo then lo else if hi < v then hi else v

/-- A number as an index below `n`. -/
def finOf (n v : Nat) : Option (Fin n) := if h : v < n then some ⟨v, h⟩ else none

/-- The window of a SetWindow body with its number, or none for BAD_FIELD (R25). -/
def readWindow (b : Bytes) : Option (Fin 16 × Window) :=
  let translate := fieldAt b 9 2
  let mask : Sid := BitVec.ofNat 12 (fieldAt b 6 2)
  match finOf 16 (byteAt b 0).toNat, readFlag (byteAt b 1), readFlag (byteAt b 8) with
  | some i, some en, some pres =>
    let feeds : Option FeedSet := match (byteAt b 2).toNat with
      | 1 => some .onlyA | 2 => some .onlyB | 3 => some .both | _ => none
    let kind : Option WindowKind := match (byteAt b 3).toNat with
      | 1 => some .carry | 2 => some .drop | 3 => some .load | _ => none
    match feeds, kind with
    | some fs, some kd =>
      if fieldAt b 4 2 > 4095 || fieldAt b 6 2 > 4095 then none
      else if pres && translate > 4095 then none
      else if pres && kd != .carry then none
      else if pres && (BitVec.ofNat 12 translate &&& mask) == mask then none
      else some (i, ⟨en, fs, kd, BitVec.ofNat 12 (fieldAt b 4 2), mask,
        if pres then some (BitVec.ofNat 12 translate) else none⟩)
    | _, _ => none
  | _, _, _ => none

/-- The settings of a SetSite body after clamping, or none for BAD_FIELD (R66). -/
def readTiming (b : Bytes) : Option Timing :=
  let mode : Option SiteMode := match (byteAt b 0).toNat with
    | 1 => some .sfnStrict | 2 => some .freeRun | _ => none
  let period := fieldAt b 17 4
  match mode with
  | none => none
  | some m => some
    { mode := m
      offset := clampInt (-500000) 500000 (ofTwos32 (fieldAt b 1 4))
      latency := clampNat 0 2000000 (fieldAt b 5 4)
      guard := clampNat 0 1000000 (fieldAt b 9 4)
      horizon := clampNat 1000000 50000000 (fieldAt b 13 4)
      period := if period = 0 then 0 else clampNat 10000 10000000 period
      tolerance := clampNat 0 100000 (fieldAt b 21 4)
      credits := clampNat 1 8 (byteAt b 25).toNat
      region := clampNat 0 15 (byteAt b 26).toNat }

/-- Site timing settings in the layout of the SetSite body (R66). -/
def writeTiming (t : Timing) : Bytes :=
  beBytes 1 (match t.mode with | .sfnStrict => 1 | .freeRun => 2) ++ beBytes 4 (toTwos32 t.offset) ++ beBytes 4 t.latency
    ++ beBytes 4 t.guard ++ beBytes 4 t.horizon ++ beBytes 4 t.period ++ beBytes 4 t.tolerance ++ beBytes 1 t.credits
    ++ beBytes 1 t.region

/-- A present SID field of a SetProgramme body: absent, or at most 4093. -/
def readSid (present : Bool) (v : Nat) : Option (Option Sid) :=
  if present then (if v ≤ 4093 then some (some (BitVec.ofNat 12 v)) else none) else some none

/-- Every two present SIDs of a list differ. -/
def sidsDiffer : List (Option Sid) → Bool
  | [] => true
  | none :: rest => sidsDiffer rest
  | some x :: rest => !rest.contains (some x) && sidsDiffer rest

/-- A programme's settings from a SetProgramme body with the programme's number, or none where R134 gives BAD_FIELD for the body
alone. -/
def readProgramme (b : Bytes) : Option (ProgNo × ProgrammeSet) :=
  match finOf 8 (byteAt b 0).toNat, readFlag (byteAt b 1), readFlag (byteAt b 2), readFlag (byteAt b 4) with
  | some p, some en, some se, some cuePresent =>
    let comp (c : Nat) : Option (Option Sid) := readSid ((byteAt b 7).getLsbD c) (fieldAt b (8 + 2 * c) 2)
    match readSid cuePresent (fieldAt b 5 2), comp 0, comp 1, comp 2, comp 3, comp 4, comp 5, comp 6, comp 7 with
    | some cue, some c0, some c1, some c2, some c3, some c4, some c5, some c6, some c7 =>
      if sidsDiffer [cue, c0, c1, c2, c3, c4, c5, c6, c7] then
        some (p, ⟨en, se, cue, #v[c0, c1, c2, c3, c4, c5, c6, c7], clampNat 1 250 (byteAt b 3).toNat⟩)
      else none
    | _, _, _, _, _, _, _, _, _ => none
  | _, _, _, _ => none

/-- A SID field of a reply: the SID, or 0 when absent (DESIGN CHOICE, entry 15). -/
def sidField (s : Option Sid) : Nat := match s with | some x => x.toNat | none => 0

/-- A programme's settings in the layout of the SetProgramme body after its first field (R134). -/
def writeProgramme (x : ProgrammeSet) : Bytes :=
  beBytes 1 (flagCode x.enabled) ++ beBytes 1 (flagCode x.spliceEnable) ++ beBytes 1 x.preroll
    ++ beBytes 1 (flagCode x.cueSid.isSome) ++ beBytes 2 (sidField x.cueSid)
    ++ [x.comps.toList.zipIdx.foldl (fun acc (c, i) => if c.isSome then acc ||| (1#8 <<< i) else acc) 0]
    ++ x.comps.toList.flatMap (fun c => beBytes 2 (sidField c))

/-- The entry of a SetSlot body with its slot code, or none for BAD_FIELD (R119). -/
def readSlotEntry (b : Bytes) : Option (Fin 256 × SlotEntry) :=
  let l := (byteAt b 3).toNat
  match readFlag (byteAt b 1), readFlag (byteAt b 4) with
  | some en, some pres =>
    if 32 ≤ l && l ≤ 254 then none
    else if pres && fieldAt b 5 2 = 0 then none
    else some ((byteAt b 0).toFin, ⟨en, byteAt b 2, finOf 32 l,
      if pres then some (BitVec.ofNat 16 (fieldAt b 5 2)) else none⟩)
  | _, _ => none

/-- A slot table entry in the layout of the SetSlot body after its first field (R119). -/
def writeSlotEntry (e : SlotEntry) : Bytes :=
  beBytes 1 (flagCode e.enabled) ++ [e.version] ++ beBytes 1 (match e.list with | some l => l.val | none => 255)
    ++ beBytes 1 (flagCode e.filler.isSome) ++ beBytes 2 (match e.filler with | some c => c.toNat | none => 0)

/-- The fields of a ClipOpen body (R106). -/
structure ClipOpenFields where
  id : ClipId
  length : Nat
  digest : BitVec 32
  source : LoadSource
deriving DecidableEq, Repr

/-- A ClipOpen body, or none for BAD_FIELD (R106, test 1). -/
def readClipOpen (b : Bytes) : Option ClipOpenFields :=
  let id := fieldAt b 0 2
  let length := fieldAt b 2 3
  let sid := fieldAt b 11 2
  let source : Option LoadSource := match (byteAt b 9).toNat with
    | 1 => some .link
    | 2 => match (byteAt b 10).toNat with
      | 1 => if sid ≤ 4094 then some (.feed .a (BitVec.ofNat 12 sid)) else none
      | 2 => if sid ≤ 4094 then some (.feed .b (BitVec.ofNat 12 sid)) else none
      | _ => none
    | _ => none
  if id = 0 || length = 0 || length > Config.maxClipCells then none
  else match source with
    | some src => some ⟨BitVec.ofNat 16 id, length, BitVec.ofNat 32 (fieldAt b 5 4), src⟩
    | none => none

/-- The clip cells of a ClipData body, in the order carried (R111). -/
def clipCells : Nat → Bytes → List Bytes
  | 0, _ => []
  | n + 1, b => b.take Config.clipCellBytes :: clipCells n (b.drop Config.clipCellBytes)

/-- A cue record, as a SIGNAL cell's payload spells it (section 1.4). -/
structure CueRecord where
  kind : Nat
  id : CueId
  out : FrameNo
  length : Nat
  slotCode : Byte
  version : Byte
  region : BitVec 16
  mode : Nat
  fallback : Nat
  confirm : Bool
deriving DecidableEq, Repr

/-- The fields of a cue record (section 1.4). -/
def readCue (p : Bytes) : CueRecord where
  kind := (byteAt p 0).toNat
  id := BitVec.ofNat 16 (fieldAt p 1 2)
  out := BitVec.ofNat 24 (fieldAt p 3 3)
  length := fieldAt p 6 2
  slotCode := byteAt p 8
  version := byteAt p 9
  region := BitVec.ofNat 16 (fieldAt p 10 2)
  mode := (byteAt p 12).toNat
  fallback := (byteAt p 13).toNat
  confirm := (byteAt p 14).getLsbD 0

/-- Whether a cue record is malformed (R7). -/
def CueRecord.malformed (c : CueRecord) : Bool :=
  (c.kind != 1 && c.kind != 2) || (c.kind == 1 && c.length == 0) || (c.mode != 1 && c.mode != 2)
    || (c.fallback != 1 && c.fallback != 2)

end Sys2Proof.Machine
end

