-- ==== Sys2Proof/Machine/Ports.lean ====
section
/-! DEFINITION. The management ports (chapter 11): summaries and Attention, the transmitter, latching a condition, counting an
event, the receiver, and the taking and answering of requests. -/

namespace Sys2Proof.Machine

/-! ### Transmitter, summary and Attention -/

/-- The Attention of a port: the condition word and the port's mask at the rise of its summary (R11). -/
def attentionFrame (word mask : BitVec 16) : TxFrame := ⟨true, 0x70, 0, beBytes 2 word.toNat ++ beBytes 2 mask.toNat⟩

/-- An Attention given to a transmitter: it waits behind the frame being sent, in the place of an Attention already waiting (R180). -/
def Transmitter.putAttention (t : Transmitter) (f : TxFrame) : Transmitter :=
  match t.sending with
  | none => { t with sending := some f }
  | some _ =>
    if t.waiting.any (·.attention) then { t with waiting := t.waiting.map (fun w => if w.attention then f else w) }
    else { t with waiting := t.waiting ++ [f] }

/-- A reply given to a transmitter (R180). -/
def Transmitter.putReply (t : Transmitter) (f : TxFrame) : Transmitter :=
  match t.sending with
  | none => { t with sending := some f }
  | some _ => { t with waiting := t.waiting ++ [f] }

/-- The transmitter has sent its frame and starts the next waiting one (R180). -/
def Transmitter.sent (t : Transmitter) : Transmitter :=
  match t.waiting with
  | [] => ⟨none, []⟩
  | f :: rest => ⟨some f, rest⟩

/-- A reply is being sent or waits to be sent (R171). -/
def Transmitter.holdsReply (t : Transmitter) : Bool :=
  t.sending.any (fun f => !f.attention) || t.waiting.any (fun f => !f.attention)

/-- One port's summary recomputed against a condition word: a rise makes an Attention (R179, R180). -/
def refreshPort (word : BitVec 16) (p : PortState) : PortState :=
  let present := (word &&& p.mask) != 0
  if present && !p.summary then
    { p with summary := true, tx := p.tx.putAttention (attentionFrame word p.mask) }
  else { p with summary := present }

/-- Both summaries recomputed: what follows every rise or fall of a condition (R179). -/
def refresh (x : Site) (d : Device) : Device :=
  let word := conditionWord x d
  { d with net := refreshPort word d.net, maint := refreshPort word d.maint }

/-- A latched condition set (R11, R179). -/
def latch (x : Site) (bits : BitVec 16) (d : Device) : Device := refresh x { d with latched := d.latched ||| bits }

/-! ### Counting (R165, R166) -/

/-- A counter with `n` added, wrapping at 48 bits (R166). -/
def Counter.add (c : Counter) (n : Nat) : Counter := { c with value := (c.value + n) % 281474976710656 }

/-- Adding `n` takes the counter past its top (R166). -/
def Counter.wraps (c : Counter) (n : Nat) : Bool := 281474976710656 ≤ c.value + n

/-- Every counter adds what an event gives it; a wrap latches COUNTER_WRAP (R165, R166). -/
def bump (x : Site) (hit : Counter → Nat) (d : Device) : Device :=
  let wrapped := d.counters.toList.any (fun c => c.wraps (hit c))
  let d1 := { d with counters := vmap (fun c => c.add (hit c)) d.counters }
  if wrapped then latch x counterWrapBit d1 else d1

/-- One event of a class with one group of sub-events (R165). -/
def count (x : Site) (cls : CountClass) (sub : Nat) (d : Device) : Device :=
  bump x (fun c => if c.cls == cls && c.selector.getLsbD sub then 1 else 0) d

/-- One FRAME_COMPLETE event: its feed and its verdict (R165). -/
def countComplete (x : Site) (f : Feed) (valid : Bool) (d : Device) : Device :=
  let feedBit := match f with | .a => 0 | .b => 1
  let verdictBit := if valid then 2 else 3
  bump x (fun c => if c.cls == .frameComplete && c.selector.getLsbD feedBit && c.selector.getLsbD verdictBit then 1 else 0) d

/-- One occupancy sample: the depth of the release buffer and the slots not FREE (R85, R165). -/
def sample (x : Site) (sent : Bool) (d : Device) : Device :=
  let bit := if sent then 0 else 1
  let depth := d.em.buffer.length
  let busy := slotsBusy d
  bump x (fun c =>
    if c.selector.getLsbD bit then
      (if c.cls == .releaseDepth then depth else if c.cls == .slotBusy then busy else 0)
    else 0) d

/-! ### Receiver (R170, R171) -/

/-- A port's BAD_FRAME count (R9, R170). -/
def countBadFrame (x : Site) (p : Port) (d : Device) : Device :=
  count x .link (match p with | .network => 0 | .maintenance => 1) d

/-- A receiver back in SEEK. -/
def rxSeek : Receiver := ⟨.seek, [], 0⟩

/-- The device with one port's receiver replaced. -/
def Device.setRx (d : Device) (p : Port) (r : Receiver) : Device := d.setPort p { d.port p with rx := r }

/-- The frame in progress is discarded and counted, and the receiver returns to SEEK (R170). -/
def dropFrame (x : Site) (p : Port) (d : Device) : Device := countBadFrame x p (d.setRx p rxSeek)

/-- A well-formed request frame offered to the input queue (R171). -/
def offerRequest (x : Site) (p : Port) (r : Request) (d : Device) : Device :=
  if (d.port p).queue.length < Config.inputQueueSize then
    d.setPort p { d.port p with queue := (d.port p).queue ++ [r] }
  else count x .link (match p with | .network => 2 | .maintenance => 3) d

/-- The body length a frame's first two bytes give. -/
def frameLength (bytes : Bytes) : Nat := fieldAt bytes 0 2

/-- A whole frame judged at the end of its check bytes (R9, R170): `bytes` are those after the start byte. -/
def judgeFrame (x : Site) (p : Port) (bytes : Bytes) (d : Device) : Device :=
  let n := frameLength bytes
  let covered := bytes.take (4 + n)
  if linkCheck covered == BitVec.ofNat 16 (fieldAt bytes (4 + n) 2) && !(byteAt bytes 2).getLsbD 7 then
    offerRequest x p ⟨byteAt bytes 2, byteAt bytes 3, (bytes.drop 4).take n⟩ (d.setRx p rxSeek)
  else dropFrame x p d

/-- One byte on a management line (R170). -/
def rxByte (x : Site) (p : Port) (d : Device) (b : Byte) : Device :=
  let r := (d.port p).rx
  let bytes := r.bytes ++ [b]
  match r.state with
  | .seek => if b = Config.startByte then d.setRx p ⟨.length, [], 0⟩ else d
  | .length =>
    if bytes.length < 2 then d.setRx p ⟨.length, bytes, 0⟩
    else if frameLength bytes > Config.maxBody then dropFrame x p d
    else d.setRx p ⟨.header, bytes, 0⟩
  | .header =>
    if bytes.length < 4 then d.setRx p ⟨.header, bytes, 0⟩
    else if frameLength bytes = 0 then d.setRx p ⟨.check, bytes, 0⟩
    else d.setRx p ⟨.body, bytes, 0⟩
  | .body =>
    if bytes.length < 4 + frameLength bytes then d.setRx p ⟨.body, bytes, 0⟩
    else d.setRx p ⟨.check, bytes, 0⟩
  | .check =>
    if bytes.length < 6 + frameLength bytes then d.setRx p ⟨.check, bytes, 0⟩
    else judgeFrame x p bytes d

/-! ### Taking and answering requests (R171, R172) -/

/-- The port's next request taken, when it has none in service and its transmitter is not sending a reply (R171); the checks of R172,
steps 1 to 4, are made at that instant (DESIGN CHOICE, entry 4). -/
def takeNext (p : Port) (s : State) : State :=
  let ps := s.dev.port p
  match ps.service, ps.queue with
  | none, r :: rest =>
    if ps.tx.holdsReply then s
    else s.setDev (s.dev.setPort p
      { ps with queue := rest, service := some ⟨r, takingRefusal s.site.phase s.control p r⟩ })
  | _, _ => s

/-- The reply to a request: its kind + 0x80, its tag, and a body that begins with the status (R10). -/
def replyFrame (r : Request) (st : Status) (extra : Bytes) : TxFrame := ⟨false, r.kind + 0x80, r.tag, st.code :: extra⟩

/-- The reply made on a port: it goes to the transmitter and ends the service (R171). -/
def sendReply (p : Port) (r : Request) (st : Status) (extra : Bytes) (s : State) : State :=
  s.setDev (s.dev.setPort p
    { s.dev.port p with service := none, tx := (s.dev.port p).tx.putReply (replyFrame r st extra) })

/-- What an owning block answers to a request: the state it leaves, the status, and the bytes after the status. -/
structure Answer where
  state : State
  status : Status
  extra : Bytes

/-- A request taken as asked. -/
def Answer.ok (s : State) : Answer := ⟨s, .ok, []⟩

/-- A request refused, which leaves the state as it was (R10). -/
def Answer.refuse (s : State) (st : Status) : Answer := ⟨s, st, []⟩

/-- The request in service on a port answered, if it is of kind `k`: with the refusal of its taking, or of the phase at the reply (R172),
or as its owning block `owner` answers. A port with no such request in service is left as it is. -/
def serve (k : Kind) (p : Port) (owner : Request → State → Answer) (s : State) : Host.Outcome State Fault Refusal :=
  let t := takeNext p s
  match (t.dev.port p).service with
  | none => .next s
  | some v =>
    if kindOf v.frame.kind ≠ some k then .next s
    else match v.refusal with
      | some st => .next (sendReply p v.frame st [] t)
      | none =>
        match k.phaseRefusal t.site.phase v.frame.body with
        | some st => .next (sendReply p v.frame st [] t)
        | none =>
          let a := owner v.frame t
          .next (sendReply p v.frame a.status a.extra a.state)

/-- One byte on a port's line, with the taking of a request that a whole frame makes possible (R170, R171). -/
def receiveByte (p : Port) (s : State) (b : Byte) : State := takeNext p (s.setDev (rxByte s.site p s.dev b))

/-! ### The rows of the ports -/

/-- MGMT_FRAME_RECEIVED (R170, R171): the receiver takes the bytes in order, and the port takes a request when it can. -/
def execMgmtFrameReceived (p : Port) (bytes : Bytes) (s : State) : Host.Outcome State Fault Refusal :=
  .next (bytes.foldl (receiveByte p) s)

/-- BODY_LENGTH_OVER_LIMIT (R170): the receiver takes the bytes in order; a body length above 1,024 discards the frame at the second
length byte. -/
def execBodyLengthOverLimit (p : Port) (bytes : Bytes) (s : State) : Host.Outcome State Fault Refusal :=
  .next (bytes.foldl (receiveByte p) s)

/-- MGMT_FRAMING_ERROR (R170): a frame in progress is discarded and counted; in SEEK the byte is passed over. -/
def execMgmtFramingError (p : Port) (s : State) : Host.Outcome State Fault Refusal :=
  if (s.dev.port p).rx.state = .seek then .next s else .next (s.setDev (dropFrame s.site p s.dev))

/-- MGMT_RECEIVE_SILENCE (R170): after 1,000,000 ticks without a byte inside a frame, the frame is discarded and counted. -/
def execMgmtReceiveSilence (p : Port) (s : State) : Host.Outcome State Fault Refusal :=
  if (s.dev.port p).rx.state = .seek || (s.dev.port p).rx.silence < Config.mgmtSilenceTicks then .next s
  else .next (s.setDev (dropFrame s.site p s.dev))

/-- MGMT_FRAME_SENT (R171, R180): the next waiting frame starts, and the port takes its next request when no reply is left. -/
def execMgmtFrameSent (p : Port) (s : State) : Host.Outcome State Fault Refusal :=
  match (s.dev.port p).tx.sending with
  | none => .next s
  | some _ =>
    .next (takeNext p (s.setDev (s.dev.setPort p { s.dev.port p with tx := (s.dev.port p).tx.sent })))

/-- UNKNOWN_KIND (R10): a request of a kind the index does not assign is answered UNKNOWN_KIND. -/
def execUnknownKind (p : Port) (s : State) : Host.Outcome State Fault Refusal :=
  let t := takeNext p s
  match (t.dev.port p).service with
  | none => .next s
  | some v =>
    if (kindOf v.frame.kind).isSome then .next s
    else .next (sendReply p v.frame .unknownKind [] t)

end Sys2Proof.Machine
end

