-- ==== Sys2Proof/Machine/Store.lean ====
section
/-! DEFINITION. Site memory and the store arbiter (chapter 6): slot allocation and freeing, the free list of clip blocks, and the
asking, granting, withdrawing and completing of store bursts. -/

namespace Sys2Proof.Machine

/-- A requestor's place in the fixed order of R97. -/
def Requestor.idx : Requestor → Fin 5
  | .emit => 0
  | .intakeA => 1
  | .intakeB => 2
  | .splice => 3
  | .load => 4

/-- The requestor at a place of the fixed order. -/
def Requestor.ofIdx (i : Fin 5) : Requestor :=
  match i with
  | 0 => .emit
  | 1 => .intakeA
  | 2 => .intakeB
  | 3 => .splice
  | 4 => .load

/-- The requestor of a feed's intake (R96). -/
def intakeRequestor : Feed → Requestor
  | .a => .intakeA
  | .b => .intakeB

/-- The frame slot a target lies in. -/
def Target.slotOf : Target → Option SlotNo
  | .slot i _ => some i
  | .intake i _ _ => some i
  | .splice i _ _ _ => some i
  | .block _ _ _ => none

/-- The clip block a target lies in. -/
def Target.blockOf : Target → Option BlockNo
  | .block b _ _ => some b
  | _ => none

/-! ### The arbiter -/

/-- A requestor has a request outstanding, waiting or in progress (R96). -/
def Arbiter.outstanding (a : Arbiter) (r : Requestor) : Bool :=
  a.waiting[r.idx].isSome || a.current.any (fun b => b.req == r)

/-- A waiting request withdrawn: its effective priority returns to the initial one (R99). -/
def Arbiter.withdraw (a : Arbiter) (r : Requestor) : Arbiter :=
  if a.waiting[r.idx].isSome then
    { a with waiting := a.waiting.set r.idx none, effective := a.effective.set r.idx a.initial[r.idx] }
  else a

/-- The waiting requests for targets with property `p` withdrawn, and the effect of a burst in progress for one discarded (R90, R94,
R99). -/
def Arbiter.cancel (a : Arbiter) (p : Target → Bool) : Arbiter :=
  let drop (i : Fin 5) (a : Arbiter) : Arbiter := if a.waiting[i].any p then a.withdraw (.ofIdx i) else a
  let a := drop 4 (drop 3 (drop 2 (drop 1 (drop 0 a))))
  { a with current := a.current.map (fun b => if p b.target then { b with keep := false } else b) }

/-- A burst begins for a requestor. -/
def Arbiter.begin_ (a : Arbiter) (r : Requestor) (t : Target) : Arbiter :=
  { a with
    current := some ⟨r, t, true⟩
    waiting := a.waiting.set r.idx none
    effective := a.effective.set r.idx a.initial[r.idx] }

/-- A grant counted (R102). -/
def countGrant (x : Site) (r : Requestor) (d : Device) : Device := count x .storeGrant r.idx.val d

/-- A requestor asks for a burst: on an idle interface it is granted at once, otherwise it waits at its initial priority (R97, R98). A
requestor with a request outstanding does not ask (R96). -/
def ask (x : Site) (r : Requestor) (t : Target) (d : Device) : Device :=
  if d.arb.outstanding r then d
  else match d.arb.current with
    | none => countGrant x r (d.setArb (d.arb.begin_ r t))
    | some _ => d.setArb
        { d.arb with
          waiting := d.arb.waiting.set r.idx (some t)
          effective := d.arb.effective.set r.idx d.arb.initial[r.idx] }

/-- The waiting requestor a decision grants: the best effective priority, the earliest in the fixed order among equals (R97). -/
def Arbiter.choice (a : Arbiter) : Option (Fin 5) :=
  (List.finRange 5).foldl (fun best i =>
    if a.waiting[i].isSome then
      match best with
      | none => some i
      | some b => if a.effective[i] < a.effective[b] then some i else best
    else best) none

/-- The requestors a decision passes over: every waiting one but the granted (R97). -/
def Arbiter.passedOver (a : Arbiter) (granted : Fin 5) : List (Fin 5) :=
  (List.finRange 5).filter (fun i => a.waiting[i].isSome && i != granted)

/-- The arbiter after a decision: the granted burst begins, and each requestor passed over improves by one (R97). -/
def Arbiter.decide_ (a : Arbiter) (granted : Fin 5) (t : Target) : Arbiter :=
  let aged := (a.passedOver granted).foldl (fun e i => vmodify e i (· - 1)) a.effective
  ({ a with effective := aged }).begin_ (.ofIdx granted) t

/-- The burst in progress has completed: a decision is made when a requestor waits, and the interface is idle otherwise (R97, R102). -/
def endBurst (x : Site) (d : Device) : Device :=
  let a := { d.arb with current := none }
  match a.choice with
  | none => d.setArb a
  | some g =>
    match a.waiting[g] with
    | none => d.setArb a
    | some t =>
      let d1 := countGrant x (.ofIdx g) (d.setArb (a.decide_ g t))
      (a.passedOver g).foldl (fun d i => count x .storePass i.val d) d1

/-- The memory interface has carried the cell of a burst: what it wrote stands in site memory, whatever becomes of the burst's effect
(R90, R94). -/
def Device.store (d : Device) (t : Target) : Device := { d with mem := t.store d.mem }

/-! ### Frame slots -/

/-- The lowest-numbered FREE slot (R88). -/
def freeSlotNo (d : Device) : Option SlotNo := vfind d.slots (fun r => r.state == .free)

/-- A slot freed: its record is emptied and every store request aimed at it ends (R90). -/
def freeSlot (i : SlotNo) (d : Device) : Device :=
  (d.updSlot i (fun _ => Record.empty)).setArb (d.arb.cancel (fun t => t.slotOf == some i))

/-- A slot's state changed (R89). -/
def setSlotState (i : SlotNo) (st : SlotState) (d : Device) : Device := d.updSlot i (fun r => { r with state := st })

/-- The frame number of a slot's record. -/
def Record.frameNo (r : Record) : FrameNo := r.number.getD 0

/-! ### Clip blocks -/

/-- Blocks returned to the tail of the free list; LOAD requests for them end (R94). -/
def returnBlocks (blocks : List BlockNo) (d : Device) : Device :=
  (d.setCat { d.cat with freeList := d.cat.freeList ++ blocks }).setArb
    (d.arb.cancel (fun t => t.blockOf.any (fun b => blocks.contains b)))

/-! ### SetArbiter (R101) -/

/-- The initial priorities a SetArbiter body asks for, each lowered to 7 (R101). -/
def readPriorities (b : Bytes) : Vector Nat 5 :=
  vmap (fun i => min (byteAt b i).toNat 7) #v[0, 1, 2, 3, 4]

/-- Priorities in the layout of the SetArbiter body. -/
def writePriorities (v : Vector Nat 5) : Bytes := v.toList.flatMap (beBytes 1)

/-- New initial priorities: a waiting requestor takes its new one and loses what aging gained it, and one not waiting will start there
(R97, R101). -/
def Arbiter.setInitial (a : Arbiter) (v : Vector Nat 5) : Arbiter := { a with initial := v, effective := v }

/-- The owner of SetArbiter (R101). -/
def ownSetArbiter (r : Request) (s : State) : Answer :=
  let v := readPriorities r.body
  let t := s.setDev (s.dev.setArb (s.dev.arb.setInitial v))
  if writePriorities v = r.body then .ok t else ⟨t, .okClamped, writePriorities v⟩

/-- SET_ARBITER (R101). -/
def execSetArbiter (p : Port) (s : State) : Host.Outcome State Fault Refusal := serve .setArbiter p ownSetArbiter s

end Sys2Proof.Machine
end

