-- ==== Sys2Proof/Machine/AsRun.lean ====
section
/-! DEFINITION. The as-run unit and the accounting requests (chapter 10): records and their numbers, drafts and what each report
does to them, the as-run queue, and AsRunFetch, SetCounter, SnapshotCounters and ClearCounters. -/

namespace Sys2Proof.Machine

/-! ### Records (R155, R156, R162) -/

/-- A record lost: it takes the next record number, the lost count goes up and ASRUN_LOST is latched (R155, R157, R162). -/
def loseRecord (x : Site) (d : Device) : Device :=
  latch x asrunLostBit (d.setAsRun { d.asrun with next := d.asrun.next + 1, lost := d.asrun.lost + 1 })

/-- A completed record takes the next record number and joins the queue, or is lost at a full queue (R155, R162). -/
def pushRecord (x : Site) (r : AsRunRecord) (d : Device) : Device :=
  if d.asrun.queue.length < Config.asRunQueueSize then
    refresh x (d.setAsRun
      { d.asrun with
        next := d.asrun.next + 1
        queue := d.asrun.queue ++ [{ r with number := d.asrun.next }] })
  else loseRecord x d

/-- An immediate record made for a cue decided without a break (R156). -/
def immediateRecord (x : Site) (p : ProgNo) (cue : CueId) (slotCode : Byte) (confirm : Bool) (o : AsRunOutcome) (c : Cause)
    (d : Device) : Device :=
  pushRecord x
    { number := 0, prog := p, cue := cue, slotCode := slotCode, outcome := o, cause := c, confirm := confirm
      standby := false, muted := false, lateFill := false, filler := false, moreClips := false
      first := none, last := none, emitted := 0, lost := 0, items := [] } d

/-! ### Drafts (R157 to R160) -/

/-- The outcome of a draft at its append: the first line of the table that applies (R160). -/
def Draft.outcome (t : Draft) : AsRunOutcome :=
  if (t.cause == .timeLost || t.cause == .siteRestart) && t.first.isNone then .aborted
  else if t.blank then .blanked
  else if t.lost == 0 && !t.lateFill && t.cause != .programmeReset && t.cause != .timeLost && t.cause != .siteRestart then .played
  else .playedShort

/-- The record a draft becomes. -/
def Draft.toRecord (t : Draft) : AsRunRecord where
  number := 0
  prog := t.prog
  cue := t.cue
  slotCode := t.slotCode
  outcome := t.outcome
  cause := t.cause
  confirm := t.confirm
  standby := t.standby
  muted := t.muted
  lateFill := t.lateFill
  filler := t.filler
  moreClips := t.moreClips
  first := t.first
  last := t.last
  emitted := t.emitted
  lost := t.lost
  items := t.items

/-- A recorded emission instant: the first when absent, the last every time (R158). -/
def Draft.record (t : Draft) (i : Instant) : Draft := { t with first := some (t.first.getD i), last := some i }

/-- A draft opened for a starting break in the lowest-numbered free entry; with none free the record is lost (R157). -/
def openDraft (x : Site) (p : ProgNo) (cue : CueId) (slotCode : Byte) (confirm blank : Bool) (c : Cause) (d : Device) :
    Option DraftNo × Device :=
  match vfind d.asrun.drafts Option.isNone with
  | none => (none, loseRecord x d)
  | some i =>
    (some i, d.setAsRun { d.asrun with drafts := d.asrun.drafts.set i (some
      { prog := p, cue := cue, slotCode := slotCode, confirm := confirm, blank := blank, cause := c
        first := none, last := none, emitted := 0, lost := 0, outstanding := 0, standby := false, muted := false
        lateFill := false, filler := false, moreClips := false, closed := false, items := [] }) })

/-- A report changes the draft of a break, if it has one (R157, R158). -/
def onDraft (i : Option DraftNo) (f : Draft → Draft) (d : Device) : Device :=
  match i with
  | none => d
  | some n => d.setAsRun { d.asrun with drafts := vmodify d.asrun.drafts n (Option.map f) }

/-- A draft that is closed with no frame outstanding is appended: it takes its outcome and number, joins the queue, and its entry is freed
(R159). -/
def appendDraft (x : Site) (i : Option DraftNo) (d : Device) : Device :=
  match i with
  | none => d
  | some n =>
    match d.asrun.drafts[n] with
    | none => d
    | some t =>
      if t.closed && t.outstanding == 0 then
        pushRecord x t.toRecord (d.setAsRun { d.asrun with drafts := d.asrun.drafts.set n none })
      else d

/-- A draft appended as SiteRestart finds it, whatever it still waited for (R161). -/
def finishDraft (x : Site) (d : Device) (i : DraftNo) : Device :=
  appendDraft x (some i) (onDraft (some i) (fun t => { t with closed := true, outstanding := 0 }) d)

/-! ### AsRunFetch (R163) -/

/-- An optional emission instant as sent: seconds and ticks, or nothing (R12). -/
def encodeInstant : Option Instant → Bytes
  | none => []
  | some i => beBytes 4 i.secs.toNat ++ beBytes 3 i.ticks

/-- The flags byte of an as-run record (section 1.7). -/
def AsRunRecord.flags (r : AsRunRecord) : Nat :=
  flagCode r.confirm + 2 * flagCode r.standby + 4 * flagCode r.muted + 8 * flagCode r.lateFill + 16 * flagCode r.filler
    + 32 * flagCode r.moreClips + 64 * flagCode r.first.isSome + 128 * flagCode r.last.isSome

/-- An as-run record as sent (R12). -/
def encodeRecord (r : AsRunRecord) : Bytes :=
  beBytes 4 r.number.toNat ++ beBytes 1 r.prog.val ++ beBytes 2 r.cue.toNat ++ [r.slotCode] ++ beBytes 1 r.outcome.code
    ++ beBytes 1 r.cause.code ++ beBytes 1 r.flags ++ encodeInstant r.first ++ encodeInstant r.last
    ++ beBytes 2 r.emitted ++ beBytes 2 r.lost ++ beBytes 1 r.items.length
    ++ r.items.flatMap (fun i => beBytes 2 i.clip.toNat ++ beBytes 3 i.played ++ beBytes 1 (flagCode i.completed))

/-- The owner of AsRunFetch (R163). -/
def ownAsRunFetch (r : Request) (s : State) : Answer :=
  let n := (byteAt r.body 0).toNat
  if n = 0 || n > 8 then .refuse s .badField
  else
    let q := s.dev.asrun.queue
    ⟨s.setDev (refresh s.site (s.dev.setAsRun { s.dev.asrun with queue := q.drop n })), .ok,
      beBytes 1 (q.take n).length ++ (q.take n).flatMap encodeRecord⟩

/-- AS_RUN_FETCH (R163). -/
def execAsRunFetch (p : Port) (s : State) : Host.Outcome State Fault Refusal := serve .asRunFetch p ownAsRunFetch s

/-! ### Counters (R167 to R169) -/

/-- The owner of SetCounter (R167). -/
def ownSetCounter (r : Request) (s : State) : Answer :=
  match finOf 8 (byteAt r.body 0).toNat, classOfCode (byteAt r.body 1).toNat with
  | some i, some cls =>
    let sel := byteAt r.body 2 &&& classBits cls
    let t := s.setDev { s.dev with counters := s.dev.counters.set i ⟨cls, sel, 0⟩ }
    if sel = byteAt r.body 2 then .ok t
    else ⟨t, .okClamped, beBytes 1 i.val ++ beBytes 1 (classCode cls) ++ [sel]⟩
  | _, _ => .refuse s .badField

/-- SET_COUNTER (R167). -/
def execSetCounter (p : Port) (s : State) : Host.Outcome State Fault Refusal := serve .setCounter p ownSetCounter s

/-- The eight counters as SnapshotCounters returns them (R168). -/
def encodeCounters (v : Vector Counter 8) : Bytes :=
  v.toList.flatMap (fun c => beBytes 1 (classCode c.cls) ++ [c.selector] ++ beBytes 6 c.value)

/-- The owner of SnapshotCounters (R168). -/
def ownSnapshotCounters (_r : Request) (s : State) : Answer := ⟨s, .ok, encodeCounters s.dev.counters⟩

/-- SNAPSHOT_COUNTERS (R168). -/
def execSnapshotCounters (p : Port) (s : State) : Host.Outcome State Fault Refusal :=
  serve .snapshotCounters p ownSnapshotCounters s

/-- Counter `i` of a set cleared where bit `i` of a byte names it (R169). -/
def clearCounters (b : Byte) (v : Vector Counter 8) : Vector Counter 8 :=
  (List.finRange 8).foldl (fun v i => if b.getLsbD i.val then vmodify v i (fun c => { c with value := 0 }) else v) v

/-- The owner of ClearCounters (R169). -/
def ownClearCounters (r : Request) (s : State) : Answer :=
  .ok (s.setDev { s.dev with counters := clearCounters (byteAt r.body 0) s.dev.counters })

/-- CLEAR_COUNTERS (R169). -/
def execClearCounters (p : Port) (s : State) : Host.Outcome State Fault Refusal := serve .clearCounters p ownClearCounters s

end Sys2Proof.Machine
end

