-- ==== Sys2Proof/Machine/Catalogue.lean ====
section
/-! DEFINITION. The clip catalogue and loader (chapter 7): records and their counts, load contexts, the load FIFO and its bursts,
the end of a load, and the requests ClipOpen to CatalogueRead. -/

namespace Sys2Proof.Machine

/-! ### Records (R103 to R105) -/

/-- The place of a clip id. -/
def findClip (id : ClipId) (d : Device) : Option PlaceNo := vfind d.cat.places (fun r => r.any (fun c => c.id == id))

/-- The record of a clip id. -/
def clipRecord (id : ClipId) (d : Device) : Option ClipRecord :=
  match findClip id d with
  | none => none
  | some i => d.cat.places[i]

/-- The device with the record of a place replaced. -/
def setPlace (i : PlaceNo) (r : Option ClipRecord) (d : Device) : Device :=
  d.setCat { d.cat with places := d.cat.places.set i r }

/-- A clip's record changed, when the id is known. -/
def updClip (id : ClipId) (f : ClipRecord → ClipRecord) (d : Device) : Device :=
  match findClip id d with
  | none => d
  | some i => setPlace i (d.cat.places[i].map f) d

/-- The values of a record entering ABSENT (R104). -/
def ClipRecord.toAbsent (r : ClipRecord) : ClipRecord :=
  { id := r.id, state := .absent, length := 0, blocks := [], digest := 0, loaded := 0, ignored := 0
    damContinuity := false, damFifo := false, damDigest := false, ctx := none, use := r.use, play := 0 }

/-- A new record for an unknown id (R107, R124). -/
def ClipRecord.fresh (id : ClipId) : ClipRecord :=
  { id := id, state := .absent, length := 0, blocks := [], digest := 0, loaded := 0, ignored := 0
    damContinuity := false, damFifo := false, damDigest := false, ctx := none, use := 0, play := 0 }

/-- A place after its record changed: an ABSENT record with use count 0 is freed (R104). -/
def ClipRecord.keep (r : ClipRecord) : Option ClipRecord := if r.state == .absent && r.use == 0 then none else some r

/-- A use count lowered; an ABSENT record that reaches 0 is freed (R104, R105). -/
def lowerUse (id : ClipId) (d : Device) : Device :=
  match findClip id d with
  | none => d
  | some i => setPlace i (d.cat.places[i].bind (fun r => ({ r with use := r.use - 1 }).keep)) d

/-- A use count raised (R105). -/
def raiseUse (id : ClipId) (d : Device) : Device := updClip id (fun r => { r with use := r.use + 1 }) d

/-- A raise of a play count, granted on a READY record alone (R105). -/
def raisePlay (id : ClipId) (d : Device) : Option Device :=
  match clipRecord id d with
  | none => none
  | some r => if r.state == .ready then some (updClip id (fun r => { r with play := r.play + 1 }) d) else none

/-- A play count lowered (R105). -/
def lowerPlay (id : ClipId) (d : Device) : Device := updClip id (fun r => { r with play := r.play - 1 }) d

/-- The length of a clip, in cells. -/
def clipLength (id : ClipId) (d : Device) : Nat := match clipRecord id d with | some r => r.length | none => 0

/-- Clip cell `j` of a clip, read from its block position (R92). -/
def readClipCell (id : ClipId) (j : Nat) (d : Device) : Bytes :=
  match clipRecord id d with
  | none => []
  | some r => match clipPlace r.blocks j with
    | some (b, i) => memReadRun d.mem (blockAddress b i) Config.clipCellBytes
    | none => []

/-! ### Load contexts and the load FIFO (R108 to R111) -/

/-- The device with a load context replaced. -/
def setCtx (c : CtxNo) (x : Option LoadCtx) (d : Device) : Device := d.setCat { d.cat with ctxs := d.cat.ctxs.set c x }

/-- The context bound to a source (R24, R106). -/
def findSource (src : LoadSource) (d : Device) : Option CtxNo :=
  vfind d.cat.ctxs (fun c => c.any (fun y => y.source == src))

/-- The head of the load FIFO asks for its LOAD burst, when LOAD has no request outstanding (R96, R109). -/
def askLoad (x : Site) (d : Device) : Device :=
  match d.cat.fifo with
  | [] => d
  | e :: _ =>
    match d.cat.ctxs[e.ctx] with
    | none => d
    | some c =>
      match clipRecord c.clip d with
      | none => d
      | some r =>
        match clipPlace r.blocks e.pos with
        | some (b, i) => if e.live then ask x .load (.block b i e.cell) d else d
        | none => d

/-- A clip cell taken by a context: it has the next position and joins the load FIFO (R108, R109). -/
def takeCell (c : CtxNo) (cell : Bytes) (d : Device) : Device :=
  match d.cat.ctxs[c] with
  | none => d
  | some y => d.setCat
      { d.cat with
        ctxs := d.cat.ctxs.set c (some { y with accepted := y.accepted + 1 })
        fifo := d.cat.fifo ++ [⟨cell, c, y.accepted, true⟩] }

/-- The cells-ignored count of a clip raised; it stays at 16,777,215 once reached (R103). -/
def ignoreCells (id : ClipId) (n : Nat) (d : Device) : Device :=
  updClip id (fun r => { r with ignored := min (r.ignored + n) Config.maxCellsIgnored }) d

/-- The clip cell a feed load cell gives: bits 2..0 of the aux byte, then the payload (R1, R8). -/
def feedClipCell (cell : Bytes) : Bytes := ((parseHeader cell).aux &&& 7) :: payloadOf cell

/-- A feed cell handed to a bound FEED context, judged in the order of R110. -/
def judgeLoadCell (x : Site) (c : CtxNo) (cell : Bytes) (d : Device) : Device :=
  let h := parseHeader cell
  match d.cat.ctxs[c] with
  | none => d
  | some y =>
    if h.qual ≠ .payload then ignoreCells y.clip 1 d
    else if y.accepted = clipLength y.clip d then ignoreCells y.clip 1 d
    else
      let mismatch := match y.expected with
        | some e => !h.disc && h.cont != e
        | none => false
      let d1 := if mismatch then updClip y.clip (fun r => { r with damContinuity := true }) d else d
      let d2 := setCtx c (some { y with expected := some (h.cont + 1) }) d1
      if Config.loadFifoSize ≤ d2.cat.fifo.length then updClip y.clip (fun r => { r with damFifo := true }) d2
      else askLoad x (takeCell c (feedClipCell cell) d2)

/-- A feed cell on a LOAD window: offered to the context bound to its SID and feed, or lost as LOAD_UNBOUND (R24). -/
def offerLoadCell (x : Site) (f : Feed) (cell : Bytes) (d : Device) : Device :=
  match findSource (.feed f (parseHeader cell).sid) d with
  | none => count x .cellDrop 4 d
  | some c => judgeLoadCell x c cell d

/-! ### Completion of a load (R109, R112) -/

/-- A load completed: the digest is compared, the record becomes READY or CORRUPT, its context is freed, and CLIP_DONE is latched
(R112). -/
def finishLoad (x : Site) (c : CtxNo) (y : LoadCtx) (d : Device) : Device :=
  let settle (r : ClipRecord) : ClipRecord :=
    let bad := r.damDigest || y.digest != r.digest
    { r with damDigest := bad, ctx := none, state := if bad || r.damContinuity || r.damFifo then .corrupt else .ready }
  latch x clipDoneBit (setCtx c none (updClip y.clip settle d))

/-- The LOAD burst of the head entry took effect: its cell is counted and digested, and the entry leaves the FIFO (R109). -/
def loadCellDone (x : Site) (d : Device) : Device :=
  match d.cat.fifo with
  | [] => d
  | e :: rest =>
    let d1 := d.setCat { d.cat with fifo := rest }
    match d1.cat.ctxs[e.ctx] with
    | none => d1
    | some y =>
      let y1 := { y with digest := frameCheckMore y.digest e.cell }
      let d2 := updClip y.clip (fun r => { r with loaded := r.loaded + 1 }) (setCtx e.ctx (some y1) d1)
      match clipRecord y.clip d2 with
      | none => d2
      | some r => if r.loaded = r.length then finishLoad x e.ctx y1 d2 else d2

/-- An entry whose load was aborted during its burst leaves the FIFO at the completion (R113). -/
def dropDeadEntry (d : Device) : Device :=
  match d.cat.fifo with
  | [] => d
  | e :: rest => if e.live then d else d.setCat { d.cat with fifo := rest }

/-- LOAD_BURST_COMPLETE (R109): the cell is in its place, the burst has its effect unless that is discarded (R94), and the arbiter's
decision and the next entry's request follow. -/
def execLoadBurstComplete (s : State) : Host.Outcome State Fault Refusal :=
  match s.dev.arb.current with
  | some ⟨.load, .block b i cell, keep⟩ =>
    let d := s.dev.store (.block b i cell)
    let d1 := if keep then loadCellDone s.site d else dropDeadEntry d
    .next (s.setDev (askLoad s.site (endBurst s.site d1)))
  | _ => .next s

/-! ### Opening and ending a load (R106, R107, R113, R114, R117) -/

/-- Blocks a clip of `n` cells needs (R93). -/
def blocksNeeded (n : Nat) : Nat := (n + 4095) / 4096

/-- A ClipOpen that passed its checks: the record, its blocks, its fields and its context (R107). -/
def openClip (o : ClipOpenFields) (place : PlaceNo) (c : CtxNo) (d : Device) : Device :=
  let old := (d.cat.places[place]).getD (ClipRecord.fresh o.id)
  let b := blocksNeeded o.length
  let rec_ : ClipRecord :=
    { old with
      state := .loading, length := o.length, digest := o.digest, blocks := d.cat.freeList.take b
      loaded := 0, ignored := 0, damContinuity := false, damFifo := false, damDigest := false, ctx := some c }
  d.setCat
    { d.cat with
      freeList := d.cat.freeList.drop b
      places := d.cat.places.set place (some rec_)
      ctxs := d.cat.ctxs.set c (some ⟨o.id, o.source, 0, none, frameCheckInit⟩) }

/-- The owner of ClipOpen (R106, R107). -/
def ownClipOpen (r : Request) (s : State) : Answer :=
  let d := s.dev
  match readClipOpen r.body with
  | none => .refuse s .badField
  | some o =>
    if (clipRecord o.id d).any (fun c => c.state != .absent) then .refuse s .wrongState
    else if o.source != .link && (findSource o.source d).isSome then .refuse s .wrongState
    else match (findClip o.id d).or (vfind d.cat.places Option.isNone) with
      | none => .refuse s .noSpace
      | some place =>
        if d.cat.freeList.length < blocksNeeded o.length then .refuse s .noSpace
        else match vfind d.cat.ctxs Option.isNone with
          | none => .refuse s .noSpace
          | some c =>
            ⟨s.setDev (openClip o place c d), .ok, beBytes 1 c.val ++ beBytes 1 (blocksNeeded o.length)⟩

/-- CLIP_OPEN (R106). -/
def execClipOpen (p : Port) (s : State) : Host.Outcome State Fault Refusal := serve .clipOpen p ownClipOpen s

/-- The owner of ClipData (R111). -/
def ownClipData (r : Request) (s : State) : Answer :=
  let d := s.dev
  let id : ClipId := BitVec.ofNat 16 (fieldAt r.body 0 2)
  let n := (byteAt r.body 2).toNat
  let cells := clipCells n (r.body.drop 3)
  if id = 0 || 3 + 169 * n ≠ r.body.length || cells.any (fun c => byteAt c 0 > 7) then .refuse s .badField
  else match clipRecord id d with
    | none => .refuse s .notFound
    | some rec_ =>
      if rec_.state ≠ .loading then .refuse s .wrongState
      else match rec_.ctx with
        | none => .refuse s .wrongState
        | some c => match d.cat.ctxs[c] with
          | none => .refuse s .wrongState
          | some y =>
            if y.source ≠ .link then .refuse s .wrongState
            else
              let m := min n (rec_.length - y.accepted)
              if Config.loadFifoSize - d.cat.fifo.length < m then .refuse s .busy
              else
                let d1 := (cells.take m).foldl (fun d cell => takeCell c cell d) d
                ⟨s.setDev (askLoad s.site (ignoreCells id (n - m) d1)), .ok,
                  beBytes 1 m ++ beBytes 3 (y.accepted + m)⟩

/-- CLIP_DATA (R111). -/
def execClipData (p : Port) (s : State) : Host.Outcome State Fault Refusal := serve .clipData p ownClipData s

/-- The load FIFO without the entries of a load that is given up; the head entry stays until its burst in progress completes (R113, step
2). -/
def dropLoadEntries (c : CtxNo) (inBurst : Bool) : List LoadEntry → List LoadEntry
  | [] => []
  | e :: rest =>
    let others := rest.filter (fun e => !(e.live && e.ctx == c))
    if e.live && e.ctx == c then (if inBurst then { e with live := false } :: others else others) else e :: others

/-- A LOADING record gives up its storage: its entries leave the FIFO, its blocks are returned, its context is freed and it becomes ABSENT
or is freed (R113, steps 2 to 5). -/
def abortLoad (i : PlaceNo) (d : Device) : Device :=
  match d.cat.places[i] with
  | none => d
  | some r =>
    let inBurst := d.arb.current.any (fun b => b.req == .load && b.keep)
    let d1 := match r.ctx with
      | none => d
      | some c => d.setCat
          { d.cat with fifo := dropLoadEntries c inBurst d.cat.fifo, ctxs := d.cat.ctxs.set c none }
    setPlace i (r.toAbsent).keep (returnBlocks r.blocks d1)

/-- The owner of ClipAbort (R113). -/
def ownClipAbort (r : Request) (s : State) : Answer :=
  let d := s.dev
  let id : ClipId := BitVec.ofNat 16 (fieldAt r.body 0 2)
  if id = 0 then .refuse s .badField
  else match findClip id d with
    | none => .refuse s .notFound
    | some i => match d.cat.places[i] with
      | none => .refuse s .notFound
      | some rec_ =>
        if rec_.state ≠ .loading then .refuse s .wrongState
        else ⟨s.setDev (askLoad s.site (abortLoad i d)), .ok, beBytes 3 (rec_.length - rec_.loaded)⟩

/-- CLIP_ABORT (R113). -/
def execClipAbort (p : Port) (s : State) : Host.Outcome State Fault Refusal := serve .clipAbort p ownClipAbort s

/-- The owner of ClipDelete (R114). -/
def ownClipDelete (r : Request) (s : State) : Answer :=
  let d := s.dev
  let id : ClipId := BitVec.ofNat 16 (fieldAt r.body 0 2)
  if id = 0 then .refuse s .badField
  else match findClip id d with
    | none => .refuse s .notFound
    | some i => match d.cat.places[i] with
      | none => .refuse s .notFound
      | some rec_ =>
        if rec_.state = .loading || rec_.state = .absent then .refuse s .wrongState
        else if 0 < rec_.play then .refuse s .inUse
        else ⟨s.setDev (setPlace i (rec_.toAbsent).keep (returnBlocks rec_.blocks d)), .ok,
          beBytes 1 (if rec_.use = 0 then 0 else 1)⟩

/-- CLIP_DELETE (R114). -/
def execClipDelete (p : Port) (s : State) : Host.Outcome State Fault Refusal := serve .clipDelete p ownClipDelete s

/-- The loads aborted by SiteRestart, in place order; the load FIFO is then empty and every load context free (R117). -/
def abortLoads (d : Device) : Device :=
  let d1 := (List.finRange 64).foldl
    (fun d i => if (d.cat.places[i]).any (fun r => r.state == .loading) then abortLoad i d else d) d
  d1.setCat { d1.cat with fifo := [], ctxs := Vector.replicate 4 none }

/-! ### Reading the catalogue (R115, R116) -/

/-- A record's summary of 24 bytes (section 7.6). -/
def clipSummary (i : PlaceNo) (r : ClipRecord) : Bytes :=
  beBytes 1 i.val ++ beBytes 2 r.id.toNat ++ beBytes 1 r.state.code ++ beBytes 3 r.length ++ beBytes 4 r.digest.toNat
    ++ beBytes 3 r.loaded ++ beBytes 3 r.ignored ++ beBytes 2 r.use ++ beBytes 2 r.play
    ++ beBytes 1 (flagCode r.damContinuity + 2 * flagCode r.damFifo + 4 * flagCode r.damDigest)
    ++ beBytes 1 (match r.ctx with | some c => c.val | none => 255) ++ beBytes 1 r.blocks.length

/-- The owner of ClipInfo (R115). -/
def ownClipInfo (r : Request) (s : State) : Answer :=
  let id : ClipId := BitVec.ofNat 16 (fieldAt r.body 0 2)
  if id = 0 then .refuse s .badField
  else match findClip id s.dev with
    | none => .refuse s .notFound
    | some i => match s.dev.cat.places[i] with
      | none => .refuse s .notFound
      | some rec_ => ⟨s, .ok, clipSummary i rec_ ++ rec_.blocks.flatMap (fun b => beBytes 2 b.val)⟩

/-- CLIP_INFO (R115). -/
def execClipInfo (p : Port) (s : State) : Host.Outcome State Fault Refusal := serve .clipInfo p ownClipInfo s

/-- The scan of CatalogueRead: the summaries taken, at most `m` of them, and the next place (R116). -/
def scanPlaces (d : Device) : List PlaceNo → Nat → List Bytes × Nat
  | [], _ => ([], 255)
  | i :: rest, m =>
    match d.cat.places[i] with
    | none => scanPlaces d rest m
    | some r =>
      if m ≤ 1 then ([clipSummary i r], if i.val = 63 then 255 else i.val + 1)
      else
        let (more, next) := scanPlaces d rest (m - 1)
        (clipSummary i r :: more, next)

/-- The owner of CatalogueRead (R116). -/
def ownCatalogueRead (r : Request) (s : State) : Answer :=
  let start := (byteAt r.body 0).toNat
  let m := (byteAt r.body 1).toNat
  if start > 63 || m = 0 || m > 32 then .refuse s .badField
  else
    let (found, next) := scanPlaces s.dev ((List.finRange 64).drop start) m
    ⟨s, .ok, beBytes 1 found.length ++ beBytes 1 next ++ found.flatten⟩

/-- CATALOGUE_READ (R116). -/
def execCatalogueRead (p : Port) (s : State) : Host.Outcome State Fault Refusal := serve .catalogueRead p ownCatalogueRead s

end Sys2Proof.Machine
end

