-- ==== Sys2Proof/Machine/Lists.lean ====
section
/-! DEFINITION. The slot table and the break lists (chapter 8): SetSlot, the editing and reading of a list, and what a list gives
a break and takes back at its close. -/

namespace Sys2Proof.Machine

/-! ### SetSlot (R119) -/

/-- The owner of SetSlot (R119). -/
def ownSetSlot (r : Request) (s : State) : Answer :=
  match readSlotEntry r.body with
  | none => .refuse s .badField
  | some (i, e) =>
    ⟨s.setSite { s.site with slotTable := s.site.slotTable.set i e }, .ok, writeSlotEntry s.site.slotTable[i]⟩

/-- SET_SLOT (R119). -/
def execSetSlot (p : Port) (s : State) : Host.Outcome State Fault Refusal := serve .setSlot p ownSetSlot s

/-! ### Rings -/

/-- The device with an entry of the pool replaced. -/
def setEntry (e : EntryNo) (x : Option RingEntry) (d : Device) : Device :=
  d.setLists { d.lists with pool := d.lists.pool.set e x }

/-- The device with a list's ring replaced. -/
def setRing (l : ListNo) (ring : List EntryNo) (d : Device) : Device :=
  d.setLists { d.lists with rings := d.lists.rings.set l ring }

/-- A ring with `e` before `b`: before the head is the new tail (R124, step 3). -/
def insertBefore (e b : EntryNo) (ring : List EntryNo) : List EntryNo :=
  match ring with
  | [] => [e]
  | h :: t => if h = b then ring ++ [e] else h :: (t.takeWhile (· != b)) ++ e :: (t.dropWhile (· != b))

/-- A ring turned so that entry `e` is its head. -/
def ringFrom (e : EntryNo) (ring : List EntryNo) : List EntryNo :=
  ring.dropWhile (· != e) ++ ring.takeWhile (· != e)

/-- The entries met going forward from entry `e`, which itself comes last (R129). -/
def ringAfter (e : EntryNo) (ring : List EntryNo) : List EntryNo :=
  match ringFrom e ring with
  | [] => []
  | h :: t => t ++ [h]

/-- An entry unlinked and freed, and its clip's use count lowered (R125, steps 1 to 4). -/
def unlinkEntry (e : EntryNo) (d : Device) : Device :=
  match d.lists.pool[e] with
  | none => d
  | some x => lowerUse x.clip (setEntry e none (setRing x.list (d.lists.rings[x.list].erase e) d))

/-! ### ListInsert, ListRemove, ListRead (R123 to R127) -/

/-- The owner of ListInsert (R123, R124). -/
def ownListInsert (r : Request) (s : State) : Answer :=
  let d := s.dev
  let pos := (byteAt r.body 1).toNat
  let before : EntryNo := (byteAt r.body 2).toFin
  let id : ClipId := BitVec.ofNat 16 (fieldAt r.body 3 2)
  match finOf 32 (byteAt r.body 0).toNat with
  | none => .refuse s .badField
  | some l =>
    if (pos ≠ 1 && pos ≠ 2) || id = 0 then .refuse s .badField
    else if pos = 2 && !(d.lists.pool[before]).any (fun e => e.list == l) then .refuse s .notFound
    else match vfind d.lists.pool Option.isNone with
      | none => .refuse s .noSpace
      | some e =>
        let known := findClip id d
        match known.or (vfind d.cat.places Option.isNone) with
        | none => .refuse s .noSpace
        | some place =>
          let d1 := if known.isSome then d else setPlace place (some (ClipRecord.fresh id)) d
          let ring := d.lists.rings[l]
          let ring1 := if pos = 2 then insertBefore e before ring else ring ++ [e]
          let d2 := raiseUse id (setEntry e (some ⟨l, id, .idle, []⟩) (setRing l ring1 d1))
          ⟨s.setDev d2, .ok, beBytes 1 e.val ++ beBytes 2 ring1.length ++ beBytes 1 (flagCode known.isNone)⟩

/-- LIST_INSERT (R124). -/
def execListInsert (p : Port) (s : State) : Host.Outcome State Fault Refusal := serve .listInsert p ownListInsert s

/-- The reply fields of ListRemove: list, length and empty flag (R125). -/
def removeReply (l : ListNo) (d : Device) : Bytes :=
  let n := d.lists.rings[l].length
  beBytes 1 l.val ++ beBytes 2 n ++ beBytes 1 (flagCode (n == 0))

/-- The owner of ListRemove (R125, R126). -/
def ownListRemove (r : Request) (s : State) : Answer :=
  let d := s.dev
  let e : EntryNo := (byteAt r.body 0).toFin
  match d.lists.pool[e] with
  | none => .refuse s .notFound
  | some x =>
    match x.state with
    | .idle =>
      let d1 := unlinkEntry e d
      ⟨s.setDev d1, .ok, removeReply x.list d1⟩
    | .inUse =>
      let d1 := setEntry e (some { x with state := .retiring }) d
      ⟨s.setDev d1, .deferred, removeReply x.list d1⟩
    | .retiring => ⟨s, .deferred, removeReply x.list d⟩

/-- LIST_REMOVE (R125). -/
def execListRemove (p : Port) (s : State) : Host.Outcome State Fault Refusal := serve .listRemove p ownListRemove s

/-- The holder bits of an entry: bit `p` for a break of programme `p` (R127). -/
def holderBits (hs : List Holder) : Byte := hs.foldl (fun acc h => acc ||| (1#8 <<< h.prog.val)) 0

/-- One item of a ListRead reply (R127). -/
def listItem (d : Device) (e : EntryNo) : Bytes :=
  match d.lists.pool[e] with
  | none => []
  | some x => beBytes 1 e.val ++ beBytes 2 x.clip.toNat ++ beBytes 1 x.state.code ++ [holderBits x.holders]

/-- The owner of ListRead (R127). -/
def ownListRead (r : Request) (s : State) : Answer :=
  let m := (byteAt r.body 2).toNat
  match finOf 32 (byteAt r.body 0).toNat with
  | none => .refuse s .badField
  | some l =>
    if m = 0 || m > 128 then .refuse s .badField
    else
      let ring := s.dev.lists.rings[l]
      let items := (ring.drop (byteAt r.body 1).toNat).take m
      ⟨s, .ok, beBytes 1 l.val ++ beBytes 2 ring.length
        ++ beBytes 1 (match ring with | [] => 255 | h :: _ => h.val)
        ++ beBytes 1 items.length ++ items.flatMap (listItem s.dev)⟩

/-- LIST_READ (R127). -/
def execListRead (p : Port) (s : State) : Host.Outcome State Fault Refusal := serve .listRead p ownListRead s

/-! ### What a list gives a break (R128 to R131) -/

/-- A break is in an entry's holder set. -/
def RingEntry.heldBy (x : RingEntry) (brk : Nat) : Bool := x.holders.any (fun h => h.brk == brk)

/-- An entry started by a break: IN_USE, with the break in its holder set (R128, R129). -/
def RingEntry.start (x : RingEntry) (h : Holder) : RingEntry := { x with state := .inUse, holders := x.holders ++ [h] }

/-- A break out of one entry's holder set; an entry left unheld becomes IDLE, or is unlinked when RETIRING (R131). -/
def releaseEntry (brk : Nat) (e : EntryNo) (d : Device) : Device :=
  match d.lists.pool[e] with
  | none => d
  | some x =>
    if !x.heldBy brk then d
    else
      let left := x.holders.filter (fun h => h.brk != brk)
      if left.isEmpty then
        match x.state with
        | .retiring => unlinkEntry e d
        | _ => setEntry e (some { x with state := .idle, holders := [] }) d
      else setEntry e (some { x with holders := left }) d

/-- A break's holds on a list released, in ring order from the head (R131). -/
def releaseHolds (brk : Nat) (l : ListNo) (d : Device) : Device :=
  (d.lists.rings[l]).foldl (fun d e => releaseEntry brk e d) d

/-- An entry as SiteRestart leaves it: unlinked when it was RETIRING, and IDLE and unheld otherwise (R132). -/
def settleEntry (d : Device) (e : EntryNo) : Device :=
  match d.lists.pool[e] with
  | none => d
  | some x => match x.state with
    | .retiring => unlinkEntry e d
    | _ => setEntry e (some { x with state := .idle, holders := [] }) d

/-- A list's head set at the close of a break: its last started entry, or the entry after it when that was played to its end (R130). -/
def rotateList (l : ListNo) (last : EntryNo) (toEnd : Bool) (d : Device) : Device :=
  setRing l (if toEnd then ringAfter last d.lists.rings[l] else ringFrom last d.lists.rings[l]) d

end Sys2Proof.Machine
end

