-- ==== Sys2Proof/Machine/Breaks.lean ====
section
/-! DEFINITION. Breaks of the splice engine (sections 9.4 to 9.6): where a break's cells come from, the close of a break, the
marks and fates of its frames, and the tally. -/

namespace Sys2Proof.Machine

/-! ### Break contexts -/

/-- Every break context of a programme, active, ended and closed. -/
def Programme.breaks (q : Programme) : List Break := q.active.toList ++ q.ended ++ q.closed

/-- The break context with a number. -/
def Programme.find (q : Programme) (id : Nat) : Option Break := q.breaks.find? (fun b => b.id == id)

/-- Every break context changed by `f`. -/
def Programme.mapBreaks (q : Programme) (f : Break → Break) : Programme :=
  { q with active := q.active.map f, ended := q.ended.map f, closed := q.closed.map f }

/-- A break of a programme. -/
def getBreak (p : ProgNo) (id : Nat) (d : Device) : Option Break := (d.splice.progs[p]).find id

/-- A break of a programme changed by `f`. -/
def updBreak (p : ProgNo) (id : Nat) (f : Break → Break) (d : Device) : Device :=
  d.updProg p (fun q => q.mapBreaks (fun b => if b.id == id then f b else b))

/-- A list with its last element changed. -/
def updLast {α : Type} (f : α → α) : List α → List α
  | [] => []
  | [a] => [f a]
  | a :: b :: rest => a :: updLast f (b :: rest)

/-! ### The source of a break's cells (R149) -/

/-- A break whose list gives no entry turns to its filler, or to null cells (R149). -/
def toFiller (b : Break) (d : Device) : Break × Device :=
  match b.filler with
  | none => ({ b with source := .null, playing := none }, d)
  | some f =>
    match raisePlay f d with
    | none => ({ b with source := .null, playing := none }, d)
    | some d1 =>
      ({ b with source := .filler, playing := some f, clipPos := 0 },
        onDraft b.draft (fun t => { t with filler := true }) d1)

/-- The walk along the entries a list offers, in ring order: an entry the break holds ends the walk, a RETIRING entry is passed over, and
any other is started; an entry whose clip is not READY ends at once (R128, R129, R149). -/
def startEntries (p : ProgNo) : List EntryNo → Break → Device → Break × Device
  | [], b, d => toFiller b d
  | e :: rest, b, d =>
    match d.lists.pool[e] with
    | none => startEntries p rest b d
    | some x =>
      if x.heldBy b.id then toFiller b d
      else if x.state == .retiring then startEntries p rest b d
      else
        let d1 := setEntry e (some (x.start ⟨p, b.id⟩)) d
        let b1 := { b with start := b.start.or (some e), current := some e, items := b.items ++ [⟨x.clip, 0, false⟩] }
        match raisePlay x.clip d1 with
        | some d2 => ({ b1 with source := .list, playing := some x.clip, clipPos := 0 }, d2)
        | none => startEntries p rest b1 d1

/-- The first entry of a starting break, from its list's head, or its filler (R128, R143). -/
def beginSource (p : ProgNo) (b : Break) (d : Device) : Break × Device :=
  if b.blank then ({ b with source := .null }, d)
  else match b.list with
    | none => toFiller b d
    | some l => startEntries p d.lists.rings[l] b d

/-- The source after one cell drawn: the clip position moves on, an entry ends at its clip's last cell and the next is started, the filler
loops (R149). -/
def advanceSource (p : ProgNo) (b : Break) (d : Device) : Break × Device :=
  match b.source, b.playing with
  | .list, some c =>
    let b1 := { b with clipPos := b.clipPos + 1, items := updLast (fun i => { i with played := i.played + 1 }) b.items }
    if clipLength c d ≤ b1.clipPos then
      let b2 := { b1 with playing := none, items := updLast (fun i => { i with completed := true }) b1.items }
      let offered := match b.list, b.current with
        | some l, some e => ringAfter e d.lists.rings[l]
        | _, _ => []
      startEntries p offered b2 (lowerPlay c d)
    else (b1, d)
  | .filler, some c =>
    if clipLength c d ≤ b.clipPos + 1 then ({ b with clipPos := 0 }, d) else ({ b with clipPos := b.clipPos + 1 }, d)
  | _, _ => (b, d)

/-- The source after `n` cells drawn (R150). -/
def advanceMany (p : ProgNo) : Nat → Break → Device → Break × Device
  | 0, b, d => (b, d)
  | n + 1, b, d =>
    let (b1, d1) := advanceSource p b d
    advanceMany p n b1 d1

/-- The clip cell a break's source gives next; none for a null choice (R148, R149). -/
def chosenCell (b : Break) (d : Device) : Option Bytes :=
  match b.source, b.playing with
  | .null, _ => none
  | _, some c => some (readClipCell c b.clipPos d)
  | _, none => none

/-! ### The close of a break (R146) -/

/-- The frames of a break's range that were never marked (R146) (DEDUCED, entry 12). -/
def Break.neverMarked (b : Break) : Nat :=
  (b.endF - b.out).toNat - (b.marked.filter (fun k => inRange k b.out b.endF)).length

/-- What the close of a break gives its draft (R159). -/
def closeDraft (b : Break) (t : Draft) : Draft :=
  { t with
    cause := b.cause
    lost := t.lost + b.neverMarked
    items := b.items.take Config.draftItems
    moreClips := decide (Config.draftItems < b.items.length)
    closed := true }

/-- The context of a break leaves the active or ended breaks; it stays among the closed ones while a marked frame is outstanding (R146,
step 4). -/
def removeBreak (b : Break) (q : Programme) : Programme :=
  { q with
    active := if q.active.any (fun a => a.id == b.id) then none else q.active
    ended := q.ended.filter (fun a => a.id != b.id)
    closed := if 0 < b.outstanding then q.closed ++ [b] else q.closed }

/-- A break closes: its list is rotated and its holds released, its play count is lowered, its draft is closed, and its context is removed
(R146). -/
def closeBreak (x : Site) (p : ProgNo) (b : Break) (d : Device) : Device :=
  let d1 := match b.list, b.current with
    | some l, some e => releaseHolds b.id l (rotateList l e (b.source != .list) d)
    | _, _ => d
  let d2 := match b.playing with
    | some c => lowerPlay c d1
    | none => d1
  let d3 := onDraft b.draft (closeDraft b) d2
  appendDraft x b.draft (d3.updProg p (removeBreak b))

/-- An ended break with no work outstanding closes (R145). -/
def closeIfDone (x : Site) (p : ProgNo) (id : Nat) (d : Device) : Device :=
  match (d.splice.progs[p]).ended.find? (fun b => b.id == id) with
  | none => d
  | some b => if b.work = 0 then closeBreak x p b d else d

/-- The range of the active break ends: it becomes the newest ended break, and closes at once when no work is outstanding (R145). -/
def endRange (x : Site) (p : ProgNo) (d : Device) : Device :=
  match (d.splice.progs[p]).active with
  | none => d
  | some b =>
    closeIfDone x p b.id (d.updProg p (fun q => { q with active := none, ended := q.ended ++ [b] }))

/-! ### Marks and fates of frames (R86, R144, R152, R158) -/

/-- The replaced positions of a programme in a frame: PAYLOAD positions it owns, in position order (R144). -/
def replacedPositions (p : ProgNo) (r : Record) : List Nat :=
  (r.headers.filter (fun h => h.qual == .payload && h.owner.any (fun o => o.1 == p))).map (·.pos)

/-- An admitted frame marked for the active break of a programme (R144) (DEDUCED, entry 12). -/
def markFrame (p : ProgNo) (slot : SlotNo) (k : FrameNo) (d : Device) : Device :=
  match (d.splice.progs[p]).active with
  | none => d
  | some b =>
    let rep := !(replacedPositions p d.slots[slot]).isEmpty
    let mark (b : Break) : Break :=
      { b with
        lastMarked := some k
        marked := if b.marked.contains k then b.marked else b.marked ++ [k]
        outstanding := b.outstanding + 1
        work := if rep then b.work + 1 else b.work }
    onDraft b.draft (fun t => { t with outstanding := t.outstanding + 1 })
      ((updBreak p b.id mark d).updSlot slot (fun r => { r with marks := r.marks ++ [⟨p, b.id, rep⟩] }))

/-- The final fates of a marked frame (R158). -/
inductive Fate where
  | sent
  | standby (i : Instant)
  | muted
  | dropped
  | reexamined
  | flushed
  | removed
deriving DecidableEq, Repr

/-- What a final fate does to a draft (R158). -/
def Fate.onDraft (f : Fate) (t : Draft) : Draft :=
  let t := { t with outstanding := t.outstanding - 1 }
  match f with
  | .sent => { t with emitted := t.emitted + 1 }
  | .standby i => { t.record i with standby := true, emitted := t.emitted + 1 }
  | .muted => { t with muted := true, lost := t.lost + 1 }
  | .dropped => { t with lost := t.lost + 1 }
  | .reexamined => { t with lost := t.lost + 1 }
  | .flushed => { t with muted := true, lost := t.lost + 1 }
  | .removed => { t with lost := t.lost + 1 }

/-- The final fates that set the tally-on flag (R152). -/
def Fate.setsTally : Fate → Bool
  | .standby _ => true
  | .muted => true
  | _ => false

/-- One programme's share of a final fate: its break, its draft, its tally, and the append of the draft (R144, R152, R158, R159). -/
def markFate (x : Site) (f : Fate) (d : Device) (m : Mark) : Device :=
  match getBreak m.prog m.brk d with
  | none => d
  | some b =>
    let settle (b : Break) : Break :=
      { b with outstanding := b.outstanding - 1, tally := b.tally || (m.replaced && f.setsTally) }
    let d1 := Machine.onDraft b.draft f.onDraft (updBreak m.prog m.brk settle d)
    let d2 := d1.updProg m.prog (fun q =>
      { q with closed := q.closed.filter (fun c => !(c.id == m.brk && c.outstanding == 0)) })
    appendDraft x b.draft d2

/-- The final fate of a frame, for every programme of its mark (R158). Drafts that it completes are appended in the order of the marks,
which is that of the programmes (R162) (DESIGN CHOICE, entry 32). -/
def finalFate (x : Site) (f : Fate) (r : Record) (d : Device) : Device := r.marks.foldl (markFate x f) d

/-- The report that sending of a frame began: its instant and the tally (R86, R152, R158). -/
def reportStart (x : Site) (r : Record) (d : Device) : Device :=
  r.marks.foldl (fun d m =>
    match getBreak m.prog m.brk d with
    | none => d
    | some b =>
      Machine.onDraft b.draft (fun t => t.record x.tb.instant)
        (updBreak m.prog m.brk (fun b => { b with tally := b.tally || m.replaced }) d)) d

/-- A frame's slot freed after its final fate. -/
def endFrame (x : Site) (f : Fate) (slot : SlotNo) (d : Device) : Device :=
  freeSlot slot (finalFate x f d.slots[slot] d)

end Sys2Proof.Machine
end

