-- ==== Sys2Proof/Machine/Splice.lean ====
section
/-! DEFINITION. The splice engine (chapter 9): cues and their decisions, what the admission of a frame does, the splice work and
its bursts, late fill, and the requests SetProgramme, CueAnswer, ProgrammeReset and QueryList. -/

namespace Sys2Proof.Machine

/-! ### The cue queue (R133, R137, R139) -/

/-- The frame after the last of a queued cue (R133). -/
def Cue.endF (c : Cue) : FrameNo := c.out + BitVec.ofNat 24 c.length

/-- A programme's cue queue replaced; CUE_QUERY follows it (R139). -/
def setQueue (x : Site) (p : ProgNo) (q : List Cue) (d : Device) : Device :=
  refresh x (d.updProg p (fun g => { g with queue := q }))

/-- A cue out of a programme's queue. CUE_QUERY follows at once, before the record that the cue may then make and the conditions that
follow the record (R180) (DESIGN CHOICE, entry 33). -/
def removeCue (x : Site) (p : ProgNo) (id : CueId) (d : Device) : Device :=
  setQueue x p ((d.splice.progs[p]).queue.filter (fun c => c.id != id)) d

/-- A queued cue's decision replaced, with the cause it keeps (R133). -/
def armCue (x : Site) (p : ProgNo) (id : CueId) (dec : Decision) (cause : Cause) (d : Device) : Device :=
  setQueue x p ((d.splice.progs[p]).queue.map (fun c => if c.id == id then { c with decision := dec, cause := cause } else c)) d

/-- The place of an out frame in a queue, by its lead from the carrier: the frames before the carrier come first, so that the queue stays
in out-frame order when a queued cue's out frame has passed (R133, R137) (DEDUCED, entry 25). -/
def outPlace (k out : FrameNo) : Nat := (out - k + 8388608#24).toNat

/-- A cue joins a queue at the place its out frame gives (R137). -/
def insertCue (k : FrameNo) (c : Cue) : List Cue → List Cue
  | [] => [c]
  | h :: t => if outPlace k c.out < outPlace k h.out then c :: h :: t else h :: insertCue k c t

/-- An immediate record made for a cue (R156). -/
def cueRecord (x : Site) (p : ProgNo) (c : Cue) (o : AsRunOutcome) (cause : Cause) (d : Device) : Device :=
  immediateRecord x p c.id c.slotCode c.confirm o cause d

/-- The fallback of a queued cue: PASS removes it with a PASSED record, BLANK arms it blank (R138). -/
def applyFallback (x : Site) (p : ProgNo) (c : Cue) (cause : Cause) (d : Device) : Device :=
  match c.fallback with
  | .pass => cueRecord x p c .passed cause (removeCue x p c.id d)
  | .blank => armCue x p c.id .blank cause d

/-- What the slot table says of a cue: the cause of its fallback, or NONE (R138). -/
def lookupCause (x : Site) (c : Cue) : Cause :=
  let e := x.slotTable[c.slotCode.toFin]
  if !e.enabled then .slotDisabled else if e.version != c.version then .versionMismatch else .none

/-- A cue decided by looking up its slot code (R120, R138). -/
def decideByTable (x : Site) (p : ProgNo) (c : Cue) (d : Device) : Device :=
  let e := x.slotTable[c.slotCode.toFin]
  match lookupCause x c with
  | .none => armCue x p c.id (.armed e.list e.filler) .none d
  | cause => applyFallback x p c cause d

/-- The expired list with one more id: of 4, the oldest goes first (R139). -/
def pushExpired (id : CueId) (l : List CueId) : List CueId :=
  (if Config.expiredSize ≤ l.length then l.drop 1 else l) ++ [id]

/-- A query expires (R141). -/
def expireQuery (x : Site) (p : ProgNo) (c : Cue) (d : Device) : Device :=
  let d1 := (count x .cue 3 d).updProg p (fun g => { g with expired := pushExpired c.id g.expired })
  applyFallback x p c .expired d1

/-! ### Taking a cue (R136, R137, R142) -/

/-- A BREAK cue as it joins the queue (R137, R139). -/
def CueRecord.toCue (r : CueRecord) (k : FrameNo) : Cue where
  id := r.id
  out := r.out
  length := r.length
  slotCode := r.slotCode
  version := r.version
  site := r.mode == 2
  fallback := if r.fallback == 2 then .blank else .pass
  confirm := r.confirm
  carrier := k
  decision := if r.mode == 2 then .query else .armed none none
  cause := .none

/-- The cue's range meets a queued cue's, or the active break's as its end now stands (R137, check 2). -/
def overlaps (g : Programme) (c : Cue) : Bool :=
  g.queue.any (fun h => h.id == c.id || rangesMeet c.out c.length h.out h.length)
    || g.active.any (fun b => rangesMeet c.out c.length b.out (b.endF - b.out).toNat)

/-- The first check of R137 that a BREAK cue fails, or NONE. -/
def refusalCause (set : ProgrammeSet) (g : Programme) (c : Cue) : Cause :=
  let lead := (c.out - c.carrier).toNat
  if lead < set.preroll || 8388608 ≤ lead then .cueLate
  else if overlaps g c then .overlap
  else if Config.cueQueueSize ≤ g.queue.length then .queueFull
  else .none

/-- A BREAK cue addressed to this site: refused, or queued and decided (R137 to R139). -/
def takeBreak (x : Site) (p : ProgNo) (c : Cue) (d : Device) : Device :=
  match refusalCause x.progs[p] d.splice.progs[p] c with
  | .none =>
    let d1 := setQueue x p (insertCue c.carrier c (d.splice.progs[p]).queue) (count x .cue 0 d)
    if c.site then d1 else decideByTable x p c d1
  | cause => cueRecord x p c .refused cause (count x .cue 2 d)

/-- A CANCEL record (R142). -/
def takeCancel (x : Site) (p : ProgNo) (r : CueRecord) (d : Device) : Device :=
  let g := d.splice.progs[p]
  match g.queue.find? (fun c => c.id == r.id) with
  | some c => cueRecord x p c .cancelled .cancelCue (removeCue x p c.id (count x .cue 5 d))
  | none =>
    match g.active with
    | none => d
    | some b =>
      if b.cue == r.id && isBefore r.out b.endF then
        let next := (b.lastMarked.getD (b.out - 1)) + 1
        let e := if isAfter next r.out then next else r.out
        let d1 := updBreak p b.id (fun b => { b with endF := e, cause := .cancelCue }) (count x .cue 5 d)
        if e = next then endRange x p d1 else d1
      else d

/-- The enabled programme whose cue SID a cue list entry has (R136). -/
def takingProgramme (x : Site) (sid : Sid) : Option ProgNo :=
  vfind x.progs (fun g => g.enabled && g.cueSid == some sid)

/-- One entry of an admitted frame's cue list taken (R136). -/
def takeCue (x : Site) (k : FrameNo) (e : CueEntry) (d : Device) : Device :=
  match takingProgramme x e.sid with
  | none => d
  | some p =>
    let r := readCue e.payload
    if r.malformed then count x .cue 6 d
    else if !(x.progs[p]).spliceEnable then d
    else if r.kind = 2 then takeCancel x p r d
    else if !r.region.getLsbD x.timing.region then count x .cue 1 d
    else takeBreak x p (r.toCue k) d

/-! ### The admitted frame and the breaks (R135, R143 to R145) -/

/-- Frame `k` is at or after frame `e`. -/
def atOrAfter (k e : FrameNo) : Bool := !isBefore k e && (k == e || isAfter k e)

/-- The break context a cue starts (R143). -/
def newBreak (id : Nat) (c : Cue) (draft : Option DraftNo) : Break where
  id := id
  cue := c.id
  out := c.out
  endF := c.endF
  slotCode := c.slotCode
  confirm := c.confirm
  blank := match c.decision with | .armed _ _ => false | _ => true
  list := match c.decision with | .armed l _ => l | _ => none
  filler := match c.decision with | .armed _ f => f | _ => none
  cause := c.cause
  start := none
  current := none
  source := .null
  playing := none
  clipPos := 0
  lastMarked := none
  marked := []
  outstanding := 0
  work := 0
  items := []
  tally := false
  draft := draft

/-- A cue leaves the queue and a break with an open draft is made of it (R143, R157). -/
def makeBreak (x : Site) (p : ProgNo) (c : Cue) (d : Device) : Break × Device :=
  let d1 := removeCue x p c.id d
  let blank := match c.decision with | .armed _ _ => false | _ => true
  let (draft, d2) := openDraft x p c.id c.slotCode c.confirm blank c.cause d1
  let id := d2.splice.nextBreak
  (newBreak id c draft, { d2 with splice := { d2.splice with nextBreak := id + 1 } })

/-- An active break's test against an admitted frame (R135, step 2b; R144, R145). -/
def testActive (x : Site) (p : ProgNo) (slot : SlotNo) (k : FrameNo) (d : Device) : Device :=
  match (d.splice.progs[p]).active with
  | none => d
  | some b =>
    if inRange k b.out b.endF then
      let d1 := markFrame p slot k d
      if k = b.endF - 1 then endRange x p d1 else d1
    else if atOrAfter k b.endF then endRange x p d
    else d

/-- A break starts at an admitted frame that its cue covers (R143). -/
def startBreak (x : Site) (p : ProgNo) (slot : SlotNo) (k : FrameNo) (c : Cue) (d : Device) : Device :=
  let (b0, d1) := makeBreak x p c d
  let (b1, d2) := beginSource p b0 d1
  testActive x p slot k (d2.updProg p (fun g => { g with active := some b1 }))

/-- A break whose range the admitted frame has passed starts and ends at once (R143). -/
def startAndEnd (x : Site) (p : ProgNo) (c : Cue) (d : Device) : Device :=
  let (b0, d1) := makeBreak x p c d
  closeBreak x p b0 d1

/-- The head cues of a programme without an active break tested in turn (R135, step 2c; R143). A head whose out frame is after the
admitted frame is left waiting. A test removes the head or decides a query, so twice the queue's length is fuel enough (DEDUCED, entry
19). -/
def testHeads (x : Site) (p : ProgNo) (slot : SlotNo) (k : FrameNo) : Nat → Device → Device
  | 0, d => d
  | n + 1, d =>
    match (d.splice.progs[p]).active, (d.splice.progs[p]).queue with
    | none, c :: _ =>
      let covers := inRange k c.out c.endF
      if isAfter c.out k || (!covers && !atOrAfter k c.endF) then d
      else if c.isQuery then testHeads x p slot k n (expireQuery x p c d)
      else if covers then testHeads x p slot k n (startBreak x p slot k c d)
      else testHeads x p slot k n (startAndEnd x p c d)
    | _, _ => d

/-- One enabled programme's action on an admitted number (R135, step 2). -/
def programmeTurn (x : Site) (slot : SlotNo) (k : FrameNo) (d : Device) (p : ProgNo) : Device :=
  if !(x.progs[p]).enabled then d
  else
    let due := (d.splice.progs[p]).queue.filter (fun c => c.isQuery && !isBefore k (c.out - 1))
    let d1 := due.foldl (fun d c => expireQuery x p c d) d
    let d2 := testActive x p slot k d1
    testHeads x p slot k (2 * (d2.splice.progs[p]).queue.length + 1) d2

/-! ### Splice work (R147) -/

/-- The positions of a frame's work order that are not yet written. -/
def Record.openItems (r : Record) : List WorkItem := r.work.drop (r.cursor.getD 0)

/-- The programmes whose work on a frame has not ended. -/
def Record.openProgs (r : Record) : List ProgNo :=
  (List.finRange 8).filter (fun p => r.openItems.any (fun w => w.prog == p))

/-- The work order of a frame: the replaced positions of each programme of its mark, lowest programme first (R147). -/
def workOrder (r : Record) : List WorkItem :=
  (List.finRange 8).flatMap (fun p =>
    if r.marks.any (fun m => m.prog == p && m.replaced) then (replacedPositions p r).map (fun i => ⟨p, i⟩) else [])

/-- A frame out of the splice work queue. -/
def leaveSpliceQueue (slot : SlotNo) (d : Device) : Device :=
  { d with splice := { d.splice with queue := d.splice.queue.erase slot } }

/-- A frame discarded at admission: its number ends a range whose last frame it is (R135, R145). Breaks that close here close in
increasing programme number (DESIGN CHOICE, entry 31). -/
def spliceDiscard (x : Site) (k : FrameNo) (d : Device) : Device :=
  (List.finRange 8).foldl (fun d p =>
    if (d.splice.progs[p]).active.any (fun b => k == b.endF - 1) then endRange x p d else d) d

/-- The break of a programme in a frame's mark. -/
def Record.markOf (r : Record) (p : ProgNo) : Option Mark := r.marks.find? (fun m => m.prog == p)

/-- A programme's work on a frame has ended: its break has one frame of work less, and an ended break without work closes where `close`
says so (R145, R147). -/
def endWork (x : Site) (close : Bool) (p : ProgNo) (brk : Nat) (d : Device) : Device :=
  let d1 := updBreak p brk (fun b => { b with work := b.work - 1 }) d
  if close then closeIfDone x p brk d1 else d1

/-- The same for a frame, by its mark. -/
def endWorkOn (x : Site) (close : Bool) (r : Record) (p : ProgNo) (d : Device) : Device :=
  match r.markOf p with
  | none => d
  | some m => endWork x close p m.brk d

/-- A frame with no position left leaves the queue, and goes from SPLICING to QUEUED (R71, R147). -/
def settleFrame (slot : SlotNo) (d : Device) : Device :=
  if (d.slots[slot]).openItems.isEmpty then
    leaveSpliceQueue slot
      (d.updSlot slot (fun r => { r with state := if r.state == .splicing then .queued else r.state }))
  else d

/-- A replacing cell: its bytes, its header list entry, and the sub-event it counts (R148). -/
structure Replacement where
  cell : Bytes
  entry : HeaderEntry
  sub : Nat

/-- A null cell in a position (R148). -/
def nullReplacement (pos sub : Nat) : Replacement :=
  ⟨nullCell pos, ⟨pos, Config.nullSid, .null, none, false⟩, sub⟩

/-- The replacing cell that a break of programme `p` gives a position (R148). Its continuity count and discontinuity flag are 0 and clear,
and are sent so when its SID is no longer restamped at the time of sending (R3, R84) (DESIGN CHOICE, entry 20). -/
def replacement (x : Site) (p : ProgNo) (b : Break) (pos : Nat) (d : Device) : Replacement :=
  match chosenCell b d with
  | none => nullReplacement pos 3
  | some cell =>
    match finOf 8 (byteAt cell 0).toNat with
    | none => nullReplacement pos 1
    | some c =>
      match (x.progs[p]).comps[c] with
      | none => nullReplacement pos 1
      | some sid =>
        ⟨formHeader ⟨sid, .payload, false, 0, 0, BitVec.ofNat 16 pos⟩ ++ cell.drop 1,
          ⟨pos, sid, .payload, some (p, c), false⟩, if b.source == .filler then 2 else 0⟩

/-- The replacing cell of a frame's position as its break's source stands when its burst is asked for. -/
def plannedCell (x : Site) (r : Record) (w : WorkItem) (d : Device) : Bytes :=
  match (r.markOf w.prog).bind (fun m => getBreak w.prog m.brk d) with
  | some b => (replacement x w.prog b w.pos d).cell
  | none => nullCell w.pos

/-- The head frame's next position asks for its SPLICE burst, when SPLICE has no request outstanding (R96, R147). -/
def askSplice (x : Site) (d : Device) : Device :=
  match d.splice.queue with
  | [] => d
  | i :: _ =>
    match (d.slots[i]).openItems with
    | [] => d
    | w :: _ =>
      match slotPlace w.pos with
      | none => d
      | some pl => ask x .splice (.splice i pl w.prog (plannedCell x d.slots[i] w d)) d

/-- An admitted frame goes to SPLICING or QUEUED (R71, R135 step 3, R147). -/
def placeFrame (x : Site) (slot : SlotNo) (d : Device) : Device :=
  match workOrder d.slots[slot] with
  | [] => setSlotState slot .queued d
  | w => askSplice x
      { (d.updSlot slot (fun r => { r with state := .splicing, cursor := some 0, work := w })) with
        splice := { d.splice with queue := d.splice.queue ++ [slot] } }

/-- The splice engine's action on an admitted frame (R135). Records completed at it are taken in the order of its steps (R162) (DESIGN
CHOICE, entry 32). -/
def spliceAdmission (x : Site) (slot : SlotNo) (d : Device) : Device :=
  let k := (d.slots[slot]).frameNo
  let d1 := (d.slots[slot]).cues.foldl (fun d e => takeCue x k e d) d
  placeFrame x slot ((List.finRange 8).foldl (programmeTurn x slot k) d1)

/-- A header list with the entry of one position replaced. -/
def replaceEntry (e : HeaderEntry) (l : List HeaderEntry) : List HeaderEntry :=
  l.map (fun h => if h.pos == e.pos then e else h)

/-- The effect of a SPLICE burst: the position holds the replacing cell, the break's source advances, the cursor goes up by one, and the
work that this finishes ends (R147 to R149). -/
def spliceWrite (x : Site) (close : Bool) (slot : SlotNo) (pl : Fin 256) (p : ProgNo) (d : Device) : Device :=
  match (d.slots[slot]).markOf p with
  | none => d
  | some m =>
    match getBreak p m.brk d with
    | none => d
    | some b =>
      let w := replacement x p b (pl.val + 1) d
      let d1 := count x .clipCell w.sub { d with mem := memWriteRun d.mem (slotAddress slot pl) w.cell }
      let d2 := d1.updSlot slot (fun r =>
        { r with headers := replaceEntry w.entry r.headers, cursor := r.cursor.map (· + 1) })
      let (b1, d3) := advanceSource p b d2
      let d4 := updBreak p m.brk (fun _ => b1) d3
      let d5 := if (d4.slots[slot]).openProgs.contains p then d4 else endWork x close p m.brk d4
      settleFrame slot d5

/-- ProgrammeReset has a SPLICE burst granted for programme `p` take its effect now; the interface stays busy until the completion, which
finds the same cell in place (R153) (DESIGN CHOICE, entry 9). -/
def completeGranted (x : Site) (p : ProgNo) (d : Device) : Device :=
  match d.arb.current with
  | some ⟨.splice, .splice i pl q _, true⟩ =>
    if q = p then
      let d1 := spliceWrite x false i pl p d
      let cell := memReadRun d1.mem (slotAddress i pl) Config.cellBytes
      d1.setArb { d1.arb with current := some ⟨.splice, .splice i pl p cell, false⟩ }
    else d
  | _ => d

/-- Waiting SPLICE requests for a frame, or for a programme, withdrawn (R99). -/
def withdrawSplice (q : SlotNo → ProgNo → Bool) (d : Device) : Device :=
  match d.arb.waiting[Requestor.splice.idx] with
  | some (.splice i _ p _) => if q i p then d.setArb (d.arb.withdraw .splice) else d
  | _ => d

/-- A programme's remaining positions taken out of a frame's work order (R147). -/
def dropItems (p : ProgNo) (r : Record) : Record :=
  { r with work := r.work.take (r.cursor.getD 0) ++ r.openItems.filter (fun w => w.prog != p) }

/-- A discarded frame's splice work ends with nothing advanced, and it leaves the queue (R151). Breaks that close with it close in
increasing programme number (R130) (DESIGN CHOICE, entry 31). -/
def dropFrameWork (x : Site) (close : Bool) (slot : SlotNo) (d : Device) : Device :=
  let r := d.slots[slot]
  let d1 := leaveSpliceQueue slot (d.updSlot slot (fun r => { r with work := r.work.take (r.cursor.getD 0) }))
  r.openProgs.foldl (fun d p => endWorkOn x close r p d) d1

/-! ### Late fill (R80, R150) -/

/-- The header list entry of a position that late fill sends as a null cell (R80). -/
def lateEntry (pos : Nat) : HeaderEntry := ⟨pos, Config.nullSid, .null, none, true⟩

/-- One programme's share of late fill: its unwritten positions carry null cells, and its break advances past them (R150). -/
def lateFillShare (x : Site) (slot : SlotNo) (d : Device) (p : ProgNo) : Device :=
  let r := d.slots[slot]
  let left := r.openItems.filter (fun w => w.prog == p)
  match r.markOf p with
  | none => d
  | some m =>
    let d1 := (d.updSlot slot (dropItems p)).updSlot slot (fun r =>
      { r with headers := left.foldl (fun l w => replaceEntry (lateEntry w.pos) l) r.headers })
    match getBreak p m.brk d1 with
    | none => d1
    | some b =>
      let (b1, d2) := advanceMany p left.length b d1
      endWork x true p m.brk (updBreak p m.brk (fun _ => b1) d2)

/-- The drafts of a frame whose splice work has not ended receive LATE_FILL (R80, R158). -/
def flagLateFill (r : Record) (d : Device) : Device :=
  r.openProgs.foldl (fun d p =>
    match r.markOf p with
    | none => d
    | some m => match getBreak p m.brk d with
      | none => d
      | some b => onDraft b.draft (fun t => { t with lateFill := true }) d) d

/-- The emission unit takes over a SPLICING frame: late fill is counted and flagged (R80) (DESIGN CHOICE, entry 9). -/
def beginLateFill (x : Site) (slot : SlotNo) (d : Device) : Device :=
  count x .emission 4 (flagLateFill d.slots[slot] d)

/-- Late fill ends a frame's splice work, once no SPLICE burst is granted for it any more (R80, R150). The programmes advance, and ended
breaks close, in increasing programme number (R130) (DESIGN CHOICE, entry 31). -/
def endLateFill (x : Site) (slot : SlotNo) (d : Device) : Device :=
  let d1 := (d.slots[slot]).openProgs.foldl (lateFillShare x slot) d
  askSplice x (withdrawSplice (fun i _ => i == slot) (leaveSpliceQueue slot d1))

/-- The SPLICE burst in progress was granted for the frame now in a slot: its effect is to be kept, or ProgrammeReset had it take effect
already. A burst discarded for an earlier frame of the slot serves no position of this one (R80, R90). -/
def spliceGranted (slot : SlotNo) (d : Device) : Bool :=
  match d.arb.current with
  | some ⟨.splice, .splice i pl p _, keep⟩ =>
    let r := d.slots[slot]
    i == slot && (keep || (r.work.take (r.cursor.getD 0)).contains ⟨p, pl.val + 1⟩)
  | _ => false

/-! ### SetProgramme (R134) -/

/-- The cue SID an entry would share with another enabled programme (R134, check 1). -/
def cueSidTaken (x : Site) (p : ProgNo) (e : ProgrammeSet) : Bool :=
  e.enabled && e.cueSid.isSome
    && (List.finRange 8).any (fun q => q != p && (x.progs[q]).enabled && (x.progs[q]).cueSid == e.cueSid)

/-- The owner of SetProgramme (R134). -/
def ownSetProgramme (r : Request) (s : State) : Answer :=
  match readProgramme r.body with
  | none => .refuse s .badField
  | some (p, e) =>
    if cueSidTaken s.site p e then .refuse s .badField
    else if s.site.phase = .running && (s.dev.splice.progs[p]).busy then .refuse s .busy
    else
      let t := s.setSite { s.site with progs := s.site.progs.set p e }
      if e.preroll = (byteAt r.body 3).toNat then .ok t else ⟨t, .okClamped, writeProgramme e⟩

/-- SET_PROGRAMME (R134). -/
def execSetProgramme (p : Port) (s : State) : Host.Outcome State Fault Refusal := serve .setProgramme p ownSetProgramme s

/-! ### CueAnswer (R140) -/

/-- The result byte of a taken answer: what became of the cue (R140). -/
def answerResult (g : Programme) (id : CueId) : Nat :=
  match g.queue.find? (fun c => c.id == id) with
  | none => 3
  | some c => match c.decision with
    | .blank => 2
    | _ => 1

/-- A taken answer's effect (R140). -/
def takeAnswer (x : Site) (p : ProgNo) (c : Cue) (take : Bool) (list : Option ListNo) (d : Device) : Device :=
  if take then
    match list with
    | some l => armCue x p c.id (.armed (some l) none) .none d
    | none => decideByTable x p c d
  else cueRecord x p c .passed .declined (removeCue x p c.id (count x .cue 4 d))

/-- The owner of CueAnswer (R140). -/
def ownCueAnswer (r : Request) (s : State) : Answer :=
  let id : CueId := BitVec.ofNat 16 (fieldAt r.body 1 2)
  let ans := (byteAt r.body 3).toNat
  let l := (byteAt r.body 5).toNat
  match finOf 8 (byteAt r.body 0).toNat, readFlag (byteAt r.body 4) with
  | some p, some pres =>
    if (ans ≠ 1 && ans ≠ 2) || (ans = 1 && pres && l > 31) then .refuse s .badField
    else
      let g := s.dev.splice.progs[p]
      match g.queue.find? (fun c => c.id == id) with
      | some c =>
        if c.isQuery then
          let d := takeAnswer s.site p c (ans = 1) (if pres then finOf 32 l else none) s.dev
          ⟨s.setDev d, .ok, beBytes 1 (answerResult d.splice.progs[p] id)⟩
        else if g.expired.contains id then .refuse s .tooLate
        else .refuse s .wrongState
      | none => .refuse s (if g.expired.contains id then .tooLate else .notFound)
  | _, _ => .refuse s .badField

/-- CUE_ANSWER (R140). -/
def execCueAnswer (p : Port) (s : State) : Host.Outcome State Fault Refusal := serve .cueAnswer p ownCueAnswer s

/-! ### ProgrammeReset and SiteRestart (R153, R154) -/

/-- A programme's queue emptied with a record for each cue, and its expired list emptied (R153, R154). -/
def emptyQueue (x : Site) (p : ProgNo) (o : AsRunOutcome) (cause : Cause) (counted : Bool) (d : Device) : Device :=
  let cues := (d.splice.progs[p]).queue
  let d1 := cues.foldl (fun d c => cueRecord x p c o cause (removeCue x p c.id (if counted then count x .cue 5 d else d))) d
  d1.updProg p (fun g => { g with expired := [] })

/-- A programme's work ended on every frame of the splice work queue (R153, step 2). -/
def endProgrammeWork (x : Site) (p : ProgNo) (d : Device) : Device :=
  let d1 := withdrawSplice (fun _ q => q == p) (completeGranted x p d)
  d1.splice.queue.foldl (fun d i =>
    if (d.slots[i]).openProgs.contains p then
      settleFrame i ((endWorkOn x false d.slots[i] p d).updSlot i (dropItems p))
    else d) d1

/-- A programme's ended breaks, then its active break, closed with a cause (R153, R154). -/
def closeBreaks (x : Site) (p : ProgNo) (cause : Cause) (d : Device) : Device :=
  let g := d.splice.progs[p]
  (g.ended ++ g.active.toList).foldl (fun d b => closeBreak x p { b with cause := cause } d) d

/-- The owner of ProgrammeReset (R153). -/
def ownProgrammeReset (r : Request) (s : State) : Answer :=
  match finOf 8 (byteAt r.body 0).toNat with
  | none => .refuse s .badField
  | some p =>
    let x := s.site
    let d1 := endProgrammeWork x p (emptyQueue x p .cancelled .programmeReset true s.dev)
    let d2 := closeBreaks x p .programmeReset d1
    ⟨s.setDev (askSplice x d2), .ok,
      beBytes 1 (s.dev.splice.progs[p]).queue.length
        ++ beBytes 1 ((d1.splice.progs[p]).ended.length + (d1.splice.progs[p]).active.toList.length)⟩

/-- PROGRAMME_RESET (R153). -/
def execProgrammeReset (p : Port) (s : State) : Host.Outcome State Fault Refusal :=
  serve .programmeReset p ownProgrammeReset s

/-- The splice engine's share of SiteRestart (R154). As each query leaves its queue CUE_QUERY is derived anew, and after it ASRUN_PENDING
as its record is completed, so that a summary can fall and rise here (R180) (DESIGN CHOICE, entry 33). -/
def spliceRestart (x : Site) (d : Device) : Device :=
  let d1 := (List.finRange 8).foldl (fun d p =>
    (closeBreaks x p .siteRestart (emptyQueue x p .aborted .siteRestart false d)).updProg p
      (fun g => { g with closed := [] })) d
  { d1 with splice := { d1.splice with queue := [] } }

/-! ### QueryList (R183) -/

/-- One item of a QueryList reply (R183). -/
def queryItem (p : ProgNo) (c : Cue) : Bytes :=
  beBytes 1 p.val ++ beBytes 2 c.id.toNat ++ beBytes 3 c.out.toNat ++ beBytes 2 c.length ++ [c.slotCode] ++ [c.version]
    ++ beBytes 1 (match c.fallback with | .pass => 1 | .blank => 2) ++ beBytes 1 (flagCode c.confirm)
    ++ beBytes 3 c.carrier.toNat

/-- Every pending query, programme 0 first (R183). -/
def queryItems (d : Device) : List Bytes :=
  (List.finRange 8).flatMap (fun p => ((d.splice.progs[p]).queue.filter Cue.isQuery).map (queryItem p))

/-- The owner of QueryList (R183). -/
def ownQueryList (_r : Request) (s : State) : Answer :=
  ⟨s, .ok, beBytes 1 (queryItems s.dev).length ++ (queryItems s.dev).flatten⟩

/-- QUERY_LIST (R183). -/
def execQueryList (p : Port) (s : State) : Host.Outcome State Fault Refusal := serve .queryList p ownQueryList s

end Sys2Proof.Machine
end

