-- ==== Sys2Proof/Machine/Emission.lean ====
section
/-! DEFINITION. The emission unit (chapter 5, sections 5.7 to 5.12): the item in service and the output mode, sending a frame cell by
cell, credits, gap frames, continuity restamping, and SetOutputMode. -/

namespace Sys2Proof.Machine

/-! ### Due instants -/

/-- The instant `ticks` after a due instant. -/
def Due.plus (d : Due) (ticks : Int) : Due := { d with total := d.total + ticks }

/-- Due instant `a` lies before due instant `b`. -/
def Due.earlier (a b : Due) : Bool := a.unwrapped < b.unwrapped

/-! ### What has left (R81, section 5.1) -/

/-- The number of the first candidate instant of a gap reference that is still to come (R81). -/
def nextCandidate (x : Site) (due : Due) : Nat :=
  let p : Int := x.timing.period
  if p ≤ 0 then 1 else max 1 ((x.tb.nowUnwrapped - due.unwrapped + p - 1) / p).toNat

/-- The frame number of an item. -/
def itemNumber (d : Device) : ItemKind → FrameNo
  | .real slot => (d.slots[slot]).frameNo
  | .gap g => g.number

/-- An item leaves at its due instant: it is the last released, and a real frame is the gap reference too (R81). -/
def leaveAtDue (x : Site) (i : Item) (d : Device) : Device :=
  let n := itemNumber d i.kind
  let e := { d.em with lastReleased := some ⟨n, i.due⟩ }
  d.setEm (match i.kind with
    | .real _ => { e with gapRef := some ⟨n, i.due, nextCandidate x i.due⟩ }
    | .gap _ => e)

/-! ### Sending (R79, R84) -/

/-- A restamped SID (R84). -/
def restamped (x : Site) (sid : Sid) : Bool :=
  x.progs.toList.any (fun g => g.enabled && g.spliceEnable && g.comps.contains (some sid))

/-- Continuity restamped for one PAYLOAD cell of a SID (R84). -/
def restampHeader (h : Header) (e : Emission) : Header × Emission :=
  match finOf 4095 h.sid.toNat with
  | none => (h, e)
  | some i =>
    ({ h with cont := (e.restamp[i]).counter, disc := (e.restamp[i]).fresh },
      { e with restamp := e.restamp.set i ⟨(e.restamp[i]).counter + 1, false⟩ })

/-- The emitted header of a position before restamping: SID and qualifier of its header list entry, the rest as stored (R3, R79). -/
def emittedHeader (r : Record) (pos : Nat) (cell : Bytes) : Header :=
  let h := parseHeader cell
  match r.headers.find? (fun e => e.pos == pos) with
  | none => h
  | some e => if e.lateNull then nullHeader pos else { h with sid := e.sid, qual := e.qual }

/-- The emitted payload of a position: all zero where late fill left a null cell, as stored otherwise (R80). -/
def emittedPayload (r : Record) (pos : Nat) (cell : Bytes) : Bytes :=
  if r.headers.any (fun e => e.pos == pos && e.lateNull) then List.replicate Config.payloadBytes 0 else payloadOf cell

/-- A stored cell put on the output port as position `pos` of a frame (R79, R84). -/
def putCell (x : Site) (slot : SlotNo) (pos : Nat) (cell : Bytes) (d : Device) : Device :=
  let r := d.slots[slot]
  let h := emittedHeader r pos cell
  let (h1, e) := if h.qual == .payload && restamped x h.sid then restampHeader h d.em else (h, d.em)
  d.setEm { e with output := e.output ++ [formHeader h1 ++ emittedPayload r pos cell], held := none }

/-- The marker cell of a real frame as sent (R6). -/
def sentMarker (r : Record) : Bytes := formHeader { parseHeader r.marker with index := 0 } ++ payloadOf r.marker

/-- The item in service asks for its next position's burst: the first while the marker leaves, each later one when the port is free (R79,
R96) (DESIGN CHOICE, entry 8). -/
def askEmit (x : Site) (d : Device) : Device :=
  match d.em.item with
  | some ⟨.real slot, _, .sending sent⟩ =>
    if sent < (d.slots[slot]).declared && d.em.held.isNone && (sent == 0 || d.em.output.isEmpty) then
      match slotPlace (sent + 1) with
      | some pl => ask x .emit (.slot slot pl) d
      | none => d
    else d
  | _ => d

/-- The marker that an item's sending begins with (R79). -/
def itemMarker (d : Device) : ItemKind → Bytes
  | .real slot => sentMarker d.slots[slot]
  | .gap g => g.marker

/-- A real frame's emission counted, reported and sampled as its sending begins (R79, R85, R86). -/
def startReports (x : Site) (k : ItemKind) (d : Device) : Device :=
  match k with
  | .real slot => sample x true (reportStart x d.slots[slot] (count x .emission 0 d))
  | .gap _ => d

/-- An item begins sending: it takes a credit, leaves at its due instant, and its marker goes on the port (R78, R79). -/
def beginSending (x : Site) (i : Item) (d : Device) : Device :=
  let d1 := leaveAtDue x i (startReports x i.kind d)
  askEmit x (d1.setEm
    { d1.em with
      credits := d1.em.credits - 1
      item := some { i with stage := .sending 0 }
      output := d1.em.output ++ [itemMarker d1 i.kind] })

/-! ### The item in service (R77, R78, R80) -/

/-- The item in service leaves without being sent: counted, sampled, its fate reported, its slot freed (R77, R78, R85). -/
def discardItem (x : Site) (i : Item) (sub : Nat) (f : Fate) (d : Device) : Device :=
  let d1 := leaveAtDue x i (count x .emission sub d)
  let d2 := match i.kind with
    | .real slot => endFrame x f slot (sample x false d1)
    | .gap _ => d1
  d2.setEm { d2.em with item := none }

/-- A gap frame discarded in STANDBY, where nothing is counted for it (R77). -/
def passGap (x : Site) (i : Item) (d : Device) : Device :=
  let d1 := leaveAtDue x i d
  d1.setEm { d1.em with item := none }

/-- The item in service handled by the output mode; `at_` is the instant a STANDBY discard records (R77, R78). -/
def handleItem (x : Site) (i : Item) (at_ : Instant) (d : Device) : Device :=
  match outputMode x d with
  | .muted => discardItem x i 3 .muted d
  | .standby =>
    match i.kind with
    | .real _ => discardItem x i 0 (.standby at_) d
    | .gap _ => passGap x i d
  | .onAir =>
    if x.timing.mode == .sfnStrict && passed x.tb i.due x.timing.tolerance then discardItem x i 2 .dropped d
    else if 0 < d.em.credits then beginSending x i d
    else d.setEm { d.em with item := some { i with stage := .waiting } }

/-- A real frame in service whose splice work has ended is handled by the output mode (R77, R80). -/
def handleFrame (x : Site) (slot : SlotNo) (due : Due) (d : Device) : Device :=
  handleItem x ⟨.real slot, due, .waiting⟩ due.instant d

/-- The head of the release buffer becomes the item in service (R77, R87); the late fill of a SPLICING frame waits for a SPLICE burst
granted for it (R80, R99). The next frame's SPLICE request, which the end of a late fill makes, comes before the EMIT request of the frame
that then begins sending (R98) (DESIGN CHOICE, entry 28). -/
def takeFrame (x : Site) (slot : SlotNo) (due : Due) (d : Device) : Device :=
  let d1 := setSlotState slot .emitting (d.setEm { d.em with buffer := d.em.buffer.erase slot })
  if (d.slots[slot]).state == .splicing then
    let d2 := beginLateFill x slot d1
    if spliceGranted slot d2 then d2.setEm { d2.em with item := some ⟨.real slot, due, .filling⟩ }
    else handleFrame x slot due (endLateFill x slot d2)
  else handleFrame x slot due d1

/-- The earliest waiting gap frame becomes the item in service (R81). -/
def takeGap (x : Site) (g : GapFrame) (d : Device) : Device :=
  handleItem x ⟨.gap g, g.due, .waiting⟩ g.due.instant (d.setEm { d.em with gaps := d.em.gaps.erase g })

/-- The due instant of the head of the release buffer. -/
def headDue (d : Device) : Option (SlotNo × Due) :=
  match d.em.buffer with
  | [] => none
  | i :: _ => match (d.slots[i]).due with
    | some due => some (i, due)
    | none => none

/-- With no item in service, the earliest item whose due instant has arrived is taken, until one stays in service or none is left (R77,
R78). Arrival is tested against site time anew, so that an item whose due instant an alignment or step moved into the future again waits
for it again (DESIGN CHOICE, entry 22). Of a waiting gap frame and the head of the buffer with one due instant, the gap frame is taken
first (DESIGN CHOICE, entry 30). -/
def serveLoop (x : Site) : Nat → Device → Device
  | 0, d => d
  | n + 1, d =>
    match d.em.item with
    | some _ => d
    | none =>
      match d.em.gaps, headDue d with
      | g :: _, some (i, due) =>
        if arrived x.tb g.due 0 && !due.earlier g.due then serveLoop x n (takeGap x g d)
        else if arrived x.tb due 0 then serveLoop x n (takeFrame x i due d)
        else d
      | g :: _, none => if arrived x.tb g.due 0 then serveLoop x n (takeGap x g d) else d
      | [], some (i, due) => if arrived x.tb due 0 then serveLoop x n (takeFrame x i due d) else d
      | [], none => d

/-- Every item that can be taken is taken (R77). -/
def serveItems (x : Site) (d : Device) : Device := serveLoop x (d.em.buffer.length + d.em.gaps.length + 1) d

/-- The output mode may have changed: a waiting item is handled in the new mode, and its instant is now (R75, R78). -/
def afterModeChange (x : Site) (d : Device) : Device :=
  match d.em.item with
  | some ⟨k, due, .waiting⟩ =>
    if outputMode x d == .onAir then d else serveItems x (handleItem x ⟨k, due, .waiting⟩ x.tb.instant d)
  | _ => d

/-- DUE_INSTANT (R77): a due instant that has arrived makes its item the item in service when there is none. -/
def execDueInstant (s : State) : Host.Outcome State Fault Refusal := .next (s.setDev (serveItems s.site s.dev))

/-- In SFN_STRICT an item still waiting is dropped where `late` says so of its due instant, and the next items are taken (R78). -/
def dropWaiting (x : Site) (late : Due → Bool) (d : Device) : Device :=
  match d.em.item with
  | some ⟨k, due, .waiting⟩ =>
    if x.timing.mode == .sfnStrict && late due then serveItems x (discardItem x ⟨k, due, .waiting⟩ 2 .dropped d) else d
  | _ => d

/-- CREDIT_RETURN (R78, R82): a credit that comes after D + C finds the item dropped. -/
def execCreditReturn (s : State) : Host.Outcome State Fault Refusal :=
  let x := s.site
  let d := dropWaiting x (fun due => passed x.tb due x.timing.tolerance) s.dev
  if x.timing.credits ≤ d.em.credits then .next (s.setDev (count x .emission 5 d))
  else
    let d1 := d.setEm { d.em with credits := d.em.credits + 1 }
    match d.em.item with
    | some ⟨k, due, .waiting⟩ => .next (s.setDev (beginSending x ⟨k, due, .waiting⟩ d1))
    | _ => .next (s.setDev d1)

/-- CREDIT_WAIT_EXPIRY (R78): in SFN_STRICT an item still waiting at D + C is dropped. -/
def execCreditWaitExpiry (s : State) : Host.Outcome State Fault Refusal :=
  let x := s.site
  .next (s.setDev (dropWaiting x (fun due => arrived x.tb due x.timing.tolerance) s.dev))

/-! ### Gap frames (R81) -/

/-- The instant of the next candidate of a gap reference, as the due instant its gap frame would have (R81). -/
def GapRef.candidate (x : Site) (g : GapRef) : Due := g.due.plus (g.next * x.timing.period : Nat)

/-- The head that the buffer has at a candidate instant: a real frame that left the buffer at that instant or later, and is in service but
not yet being sent, is still the head there, whichever of the two events of one instant is taken first (R81, section 5.10). -/
def headAt (d : Device) (at_ : Due) : Option (SlotNo × Due) :=
  match d.em.item with
  | some ⟨.real i, due, .waiting⟩ | some ⟨.real i, due, .filling⟩ => if due.earlier at_ then headDue d else some (i, due)
  | _ => headDue d

/-- A gap frame is made at a candidate instant (R81, the three conditions). -/
def gapWanted (d : Device) (g : GapRef) (at_ : Due) : Bool :=
  match headAt d at_ with
  | none => false
  | some (slot, due) =>
    g.next < ((d.slots[slot]).frameNo - g.number).toNat
      && at_.earlier due
      && d.em.lastReleased.any (fun l => isAfter (g.number + BitVec.ofNat 24 g.next) l.number)

/-- GAP_CANDIDATE_INSTANT (R81): the buffer is examined at the candidate instant, which may make a gap frame. -/
def execGapCandidateInstant (s : State) : Host.Outcome State Fault Refusal :=
  let x := s.site
  let d := s.dev
  match d.em.gapRef with
  | none => .next s
  | some g =>
    let due := g.candidate x
    if x.timing.period = 0 || !arrived x.tb due 0 then .next s
    else
      let d1 := d.setEm { d.em with gapRef := some { g with next := g.next + 1 } }
      if gapWanted d g due then
        let n := g.number + BitVec.ofNat 24 g.next
        let frame : GapFrame := ⟨n, due, gapMarker n (due.total - x.timing.offset + x.timing.latency)⟩
        .next (s.setDev (serveItems x (count x .emission 1 (d1.setEm { d1.em with gaps := d1.em.gaps ++ [frame] }))))
      else .next (s.setDev d1)

/-- A step of site time: the candidate instants it passed over are not taken up (R81) (DEDUCED, entry 11). -/
def skipCandidates (x : Site) (d : Device) : Device :=
  match d.em.gapRef with
  | none => d
  | some g => d.setEm { d.em with gapRef := some { g with next := max g.next (nextCandidate x g.due) } }

/-! ### The output port (R79, R96) -/

/-- A position put on the port counted in the item's sending (DESIGN CHOICE, entry 8). -/
def bumpSent (d : Device) : Device :=
  match d.em.item with
  | some ⟨k, due, .sending n⟩ => d.setEm { d.em with item := some ⟨k, due, .sending (n + 1)⟩ }
  | _ => d

/-- A read cell goes on the port when the port is free, and is held until then (R79) (DESIGN CHOICE, entry 8). -/
def deliverCell (x : Site) (slot : SlotNo) (pos : Nat) (cell : Bytes) (d : Device) : Device :=
  if d.em.output.isEmpty then bumpSent (putCell x slot pos cell d)
  else d.setEm { d.em with held := some cell }

/-- EMIT_BURST_COMPLETE (R79, R96): the read cell is sent, unless its frame has gone. -/
def execEmitBurstComplete (s : State) : Host.Outcome State Fault Refusal :=
  let x := s.site
  match s.dev.arb.current with
  | some ⟨.emit, .slot i pl, keep⟩ =>
    let d1 := endBurst x s.dev
    let cell := memReadRun s.dev.mem (slotAddress i pl) Config.cellBytes
    .next (s.setDev (if keep then deliverCell x i (pl.val + 1) cell d1 else askEmit x d1))
  | _ => .next s

/-- A cell held for the port goes on it when the port is free. -/
def releaseHeld (x : Site) (d : Device) : Device :=
  match d.em.item, d.em.held with
  | some ⟨.real slot, _, .sending n⟩, some cell =>
    if d.em.output.isEmpty then bumpSent (putCell x slot (n + 1) cell d) else d
  | _, _ => d

/-- The cells an item sends after its marker. -/
def itemCells (d : Device) : ItemKind → Nat
  | .real slot => (d.slots[slot]).declared
  | .gap _ => 0

/-- The item in service has put its last cell on the port and the port is free. -/
def itemDone (d : Device) : Bool :=
  match d.em.item with
  | some ⟨k, _, .sending n⟩ => itemCells d k ≤ n && d.em.output.isEmpty && d.em.held.isNone
  | _ => false

/-- The end of sending: a real frame's fate is reported and its slot freed; the item in service becomes none (R79, R158). -/
def endSending (x : Site) (d : Device) : Device :=
  match d.em.item with
  | some ⟨k, _, _⟩ =>
    let d1 := match k with
      | .real slot => endFrame x .sent slot d
      | .gap _ => d
    serveItems x (d1.setEm { d1.em with item := none })
  | none => d

/-- OUTPUT_CELL_SENT (R79): the next cell follows, or the item in service ends. -/
def execOutputCellSent (s : State) : Host.Outcome State Fault Refusal :=
  let x := s.site
  match s.dev.em.output with
  | [] => .next s
  | _ :: rest =>
    let d1 := releaseHeld x (s.dev.setEm { s.dev.em with output := rest })
    .next (s.setDev (if itemDone d1 then endSending x d1 else askEmit x d1))

/-! ### The completion of a SPLICE burst (R80, R147) -/

/-- What follows a SPLICE burst for a slot: the late fill that waited for it ends, or the next position asks for its burst (R80,
R147). -/
def afterSplice (x : Site) (slot : SlotNo) (d : Device) : Device :=
  match d.em.item with
  | some ⟨.real i, due, .filling⟩ =>
    if i = slot then serveItems x (handleFrame x slot due (endLateFill x slot d)) else askSplice x d
  | _ => askSplice x d

/-- SPLICE_BURST_COMPLETE (R147): the burst's effect, or only its cell in its place where the effect is discarded (R90); then the
arbiter's decision and what follows. -/
def execSpliceBurstComplete (s : State) : Host.Outcome State Fault Refusal :=
  match s.dev.arb.current with
  | some ⟨.splice, .splice i pl p cell, keep⟩ =>
    let d1 := if keep then spliceWrite s.site true i pl p s.dev else s.dev.store (.splice i pl p cell)
    .next (s.setDev (afterSplice s.site i (endBurst s.site d1)))
  | _ => .next s

/-! ### Abandoning (R83) and SetOutputMode (R76) -/

/-- The item in service abandoned or dropped, with what splice work its late fill still waited to end (R151), and the waiting gap frames
with it; the cell now leaving the port is finished (R83) (DEDUCED, entries 8 and 10). -/
def abandonItem (x : Site) (f : Fate) (d : Device) : Device :=
  let d1 := match d.em.item with
    | some ⟨.real slot, _, _⟩ => endFrame x f slot (dropFrameWork x false slot d)
    | _ => d
  d1.setEm { d1.em with item := none, gaps := [], held := none, output := d1.em.output.take 1 }

/-- The host choice a SetOutputMode body names (R76). -/
def hostChoiceOf : Nat → Option HostChoice
  | 1 => some .onAir
  | 2 => some .mute
  | 3 => some .standby
  | _ => none

/-- The owner of SetOutputMode (R76). -/
def ownSetOutputMode (r : Request) (s : State) : Answer :=
  match hostChoiceOf (byteAt r.body 0).toNat with
  | none => .refuse s .badField
  | some c =>
    let x := { s.site with hostChoice := c }
    .ok ((s.setSite x).setDev (afterModeChange x (refresh x s.dev)))

/-- SET_OUTPUT_MODE (R76). -/
def execSetOutputMode (p : Port) (s : State) : Host.Outcome State Fault Refusal := serve .setOutputMode p ownSetOutputMode s

end Sys2Proof.Machine
end

