-- ==== Sys2Proof/Machine/Release.lean ====
section
/-! DEFINITION. The release scheduler (chapter 5, sections 5.2 to 5.6): the due instant, admission, re-examination on a step, the
flush on loss of trust, and SetSite. -/

namespace Sys2Proof.Machine

/-! ### The due instant (R68) -/

/-- The seconds of a stamp extended around the current site second (R68, step 1). -/
def stampSeconds (s : Nat) (s8 : Nat) : Int :=
  let d := (s8 + 256 - s % 256) % 256
  if d ≤ 127 then (s + d : Int) else (s + d : Int) - 256

/-- The due instant of a stamp, at the current site time and settings (R68, step 2). -/
def stampDue (x : Site) (stamp : Byte × Nat) : Due :=
  ⟨stampSeconds x.tb.secs.toNat stamp.1.toNat * Config.ticksPerSecond + stamp.2 + x.timing.offset - x.timing.latency, x.tb.era⟩

/-- A due instant given by its count through the wraps of S. -/
def dueAt (tb : Timebase) (u : Int) : Due := ⟨u - tb.era * Config.ticksPerEra, tb.era⟩

/-- The lead of a due instant over site time (R68, step 3). -/
def leadOf (tb : Timebase) (due : Due) : Int := due.unwrapped - tb.nowUnwrapped

/-! ### Neighbours in the buffer (R69) -/

/-- A frame of the release buffer: its number and due instant. -/
structure Buffered where
  number : FrameNo
  due : Due

/-- The frames of the release buffer, earliest first. -/
def buffered (d : Device) : List Buffered :=
  d.em.buffer.filterMap (fun i => (d.slots[i]).due.map (fun due => ⟨(d.slots[i]).frameNo, due⟩))

/-- The element with the least measure. -/
def leastBy {α : Type} (f : α → Nat) : List α → Option α
  | [] => none
  | a :: rest =>
    match leastBy f rest with
    | none => some a
    | some b => if f b < f a then some b else some a

/-- The due instant of a frame's predecessor (R69). -/
def predecessorDue (d : Device) (n : FrameNo) : Option Due :=
  match leastBy (fun b => (n - b.number).toNat) ((buffered d).filter (fun b => isAfter n b.number)) with
  | some b => some b.due
  | none => d.em.lastReleased.map (·.due)

/-- The due instant of a frame's successor (R69). -/
def successorDue (d : Device) (n : FrameNo) : Option Due :=
  (leastBy (fun b => (b.number - n).toNat) ((buffered d).filter (fun b => isAfter b.number n))).map (·.due)

/-- The number of the newest gap frame that has not yet left at its due instant (R69). -/
def newestGap (d : Device) : Option FrameNo :=
  match d.em.gaps.getLast?, d.em.item with
  | some g, _ => some g.number
  | none, some ⟨.gap g, _, .waiting⟩ => some g.number
  | none, _ => none

/-- The ORDER test of R69, with due instant `due`. -/
def outOfOrder (d : Device) (n : FrameNo) (due : Due) : Bool :=
  let b := buffered d
  b.any (fun f => f.number == n)
    || d.em.lastReleased.any (fun l => !isAfter n l.number)
    || b.any (fun f => (n - f.number).toNat == 8388608)
    || (predecessorDue d n).any (fun p => !p.earlier due)
    || (successorDue d n).any (fun s => !due.earlier s)
    || (newestGap d).any (fun g => !isAfter n g)

/-! ### Admission (R69 to R71) -/

/-- The class of a frame at admission (R69). -/
inductive Admission where
  | admitted (due : Due)
  | early
  | late
  | order
  | noTime
deriving DecidableEq, Repr

/-- The sub-event of FRAME_DECIDED that a class counts (R164). -/
def Admission.sub : Admission → Nat
  | .admitted _ => 0
  | .early => 1
  | .late => 2
  | .order => 3
  | .noTime => 4

/-- ORDER, or ADMITTED with a due instant. -/
def orderTest (d : Device) (n : FrameNo) (due : Due) : Admission := if outOfOrder d n due then .order else .admitted due

/-- The due instant that FREE_RUN gives a frame whose lead is less than G (R70, time trusted). -/
def raisedDue (x : Site) (d : Device) (n : FrameNo) : Due :=
  let u := x.tb.nowUnwrapped + x.timing.guard
  match predecessorDue d n with
  | none => dueAt x.tb u
  | some p => dueAt x.tb (if u ≤ p.unwrapped then p.unwrapped + 1 else u)

/-- The due instant of FREE_RUN without trusted time (R70). -/
def untrustedDue (x : Site) (d : Device) : Due :=
  let u := x.tb.nowUnwrapped + x.timing.guard
  match d.em.lastAdmitted with
  | none => dueAt x.tb u
  | some l => dueAt x.tb (max u (l.unwrapped + x.timing.period))

/-- The class of a frame by R69 and R70, from its number and stamp. -/
def classify (x : Site) (d : Device) (n : FrameNo) (stamp : Byte × Nat) : Admission :=
  let due := stampDue x stamp
  match x.timing.mode with
  | .sfnStrict =>
    if !x.tb.trusted then .noTime
    else if x.timing.horizon < leadOf x.tb due then .early
    else if leadOf x.tb due < x.timing.guard then .late
    else orderTest d n due
  | .freeRun =>
    if x.tb.trusted then
      if x.timing.horizon < leadOf x.tb due then .early
      else orderTest d n (if leadOf x.tb due < x.timing.guard then raisedDue x d n else due)
    else
      if x.timing.horizon < leadOf x.tb (untrustedDue x d) then .early
      else orderTest d n (untrustedDue x d)

/-- A slot in the release buffer at the place its due instant gives (R71, R72). -/
def insertByDue (d : Device) (slot : SlotNo) (due : Due) : List SlotNo → List SlotNo
  | [] => [slot]
  | h :: t =>
    if (d.slots[h]).due.any (fun e => due.earlier e) then slot :: h :: t else h :: insertByDue d slot due t

/-- A frame admitted (R71). -/
def admitFrame (x : Site) (slot : SlotNo) (due : Due) (d : Device) : Device :=
  let d1 := d.updSlot slot (fun r => { r with due := some due })
  let d2 := d1.setEm { d1.em with buffer := insertByDue d slot due d.em.buffer, lastAdmitted := some due }
  spliceAdmission x slot d2

/-- A frame discarded at admission (R69, R135). -/
def discardFrame (x : Site) (slot : SlotNo) (d : Device) : Device :=
  spliceDiscard x (d.slots[slot]).frameNo (freeSlot slot d)

/-- A copy handed to admission by the selector (R69, R71). -/
def handOver (x : Site) (slot : SlotNo) (d : Device) : Device :=
  let r := d.slots[slot]
  let c := classify x d r.frameNo (r.stamp.getD (0, 0))
  let d1 := count x .frameDecided c.sub d
  match c with
  | .admitted due => admitFrame x slot due d1
  | _ => discardFrame x slot d1

/-! ### Notices from the timebase (R64, R73, R74, R83) -/

/-- Changes of trust in a notice (R64). -/
inductive TrustChange where
  | none | gained | lost
deriving DecidableEq, Repr

/-- A notice to the release scheduler (R64); site time after it is read from the timebase. -/
structure Notice where
  step : Option Int
  change : TrustChange
deriving DecidableEq, Repr

/-- A frame out of the release buffer before its due instant, with its fate (R73, R74, R151). -/
def removeFrame (x : Site) (close : Bool) (f : Fate) (slot : SlotNo) (d : Device) : Device :=
  endFrame x f slot (dropFrameWork x close slot (d.setEm { d.em with buffer := d.em.buffer.erase slot }))

/-- A frame of the buffer is passed (R73). -/
def framePassed (x : Site) (d : Device) (i : SlotNo) : Bool := (d.slots[i]).due.any (fun due => passed x.tb due 0)

/-- Re-examination in SFN_STRICT: each passed frame is discarded as LATE (R73). -/
def reexamineStrict (x : Site) (d : Device) : Device :=
  (d.em.buffer.filter (framePassed x d)).foldl
    (fun d i => removeFrame x true .reexamined i (count x .frameDecided 2 d)) d

/-- Re-examination in FREE_RUN: passed frames, and those they push, get new due instants in order (R73). -/
def reexamineFree (x : Site) : Option Int → List SlotNo → Device → Device
  | _, [], d => d
  | prev, i :: rest, d =>
    match (d.slots[i]).due with
    | none => reexamineFree x prev rest d
    | some due =>
      let behind := prev.any (fun p => due.unwrapped ≤ p)
      if passed x.tb due 0 || behind then
        let u := x.tb.nowUnwrapped + x.timing.guard
        let u1 := match prev with
          | none => u
          | some p => max u (p + 1)
        reexamineFree x (some u1) rest (d.updSlot i (fun r => { r with due := some (dueAt x.tb u1) }))
      else reexamineFree x (some due.unwrapped) rest d

/-- The breaks that lose a frame by a flush: those in the marks of the frames removed (R151). -/
def flushedMarks (d : Device) : List Mark :=
  let inService := match d.em.item with
    | some ⟨.real slot, _, _⟩ => [slot]
    | _ => []
  (inService ++ d.em.buffer).flatMap (fun i => (d.slots[i]).marks)

/-- One programme after a flush: its ended breaks close with TIME_LOST, an active break that lost a frame takes that cause, and no tally
flag stays set (R151, R152). -/
def flushProgramme (x : Site) (lost : List Mark) (d : Device) (p : ProgNo) : Device :=
  let d1 := closeEach x p (d.splice.progs[p]).ended d
  d1.updProg p (fun g =>
    { g.mapBreaks (fun b => { b with tally := false }) with
      active := g.active.map (fun b =>
        { b with
          tally := false
          cause := if lost.any (fun m => m.prog == p && m.brk == b.id) then .timeLost else b.cause }) })
where
  /-- The ended breaks closed in the order they ended. -/
  closeEach (x : Site) (p : ProgNo) : List Break → Device → Device
    | [], d => d
    | b :: rest, d => closeEach x p rest (closeBreak x p { b with cause := .timeLost } d)

/-- Every open draft receives MUTED (R158). -/
def muteDrafts (d : Device) : Device :=
  d.setAsRun { d.asrun with drafts := vmap (Option.map (fun t => { t with muted := true })) d.asrun.drafts }

/-- Loss of trust in SFN_STRICT: the item in service is abandoned, the waiting gap frames are dropped, and the release buffer is flushed
(R74, R83, R151). Ended breaks close in increasing programme number (R130) (DESIGN CHOICE, entry 31). -/
def flushBuffer (x : Site) (d : Device) : Device :=
  let lost := flushedMarks d
  let d1 := abandonItem x .flushed (muteDrafts d)
  let d2 := d1.em.buffer.foldl (fun d i => removeFrame x false .flushed i (count x .frameDecided 4 d)) d1
  askSplice x ((List.finRange 8).foldl (flushProgramme x lost) d2)

/-- What the release scheduler and the emission unit do with a notice (R73, R74, R83). -/
def takeNotice (x : Site) (n : Notice) (d : Device) : Device :=
  let d1 :=
    if x.timing.mode == .sfnStrict && n.change == .lost then flushBuffer x d
    else if n.step.isNone then d
    else match x.timing.mode with
      | .sfnStrict => if x.tb.trusted then askSplice x (reexamineStrict x d) else d
      | .freeRun => reexamineFree x none d.em.buffer d
  let d2 := if n.step.isSome then skipCandidates x d1 else d1
  afterModeChange x d2

/-! ### SetSite (R66, R67) -/

/-- The owner of SetSite (R66, R67). -/
def ownSetSite (r : Request) (s : State) : Answer :=
  match readTiming r.body with
  | none => .refuse s .badField
  | some t =>
    let st := if writeTiming t = r.body then (Status.ok, []) else (Status.okClamped, writeTiming t)
    match s.site.phase with
    | .held =>
      let x := { s.site with timing := t }
      ⟨(s.setSite x).setDev (refresh x (s.dev.setEm { s.dev.em with credits := t.credits })), st.1, st.2⟩
    | .running =>
      if { t with offset := s.site.timing.offset } ≠ s.site.timing then .refuse s .wrongState
      else ⟨s.setSite { s.site with timing := t }, st.1, st.2⟩

/-- SET_SITE (R66). -/
def execSetSite (p : Port) (s : State) : Host.Outcome State Fault Refusal := serve .setSite p ownSetSite s

end Sys2Proof.Machine
end

