-- ==== Sys2Proof/Machine/Selector.lean ====
section
/-! DEFINITION. The frame selector (chapter 3): the decided list and the pairing table, the taking of copies in both modes, the end of a
wait, the loss of feed A, and SetSelector. -/

namespace Sys2Proof.Machine

/-! ### The collections (R34, R35) -/

/-- The device with its selector replaced. -/
def Device.setSel (d : Device) (s : Selector) : Device := { d with sel := s }

/-- A number on the decided list of a full or partial list: of 16, the oldest goes first (R34). -/
def pushDecided (n : FrameNo) (l : List FrameNo) : List FrameNo :=
  (if Config.decidedSize ≤ l.length then l.drop 1 else l) ++ [n]

/-- The pairing entry of a number. -/
def findEntry (n : FrameNo) (d : Device) : Option PairEntry := d.sel.table.find? (fun e => e.number == n)

/-- A number decided: it joins the decided list, and its entry is removed (R34, R35). -/
def decideNumber (n : FrameNo) (d : Device) : Device :=
  d.setSel ⟨pushDecided n d.sel.decided, d.sel.table.filter (fun e => e.number != n)⟩

/-- A copy freed as a DUPLICATE (R38, R41, R42). -/
def freeDuplicate (x : Site) (slot : SlotNo) (d : Device) : Device := freeSlot slot (count x .frameDecided 5 d)

/-- The number is decided and its chosen copy is handed to admission (R34). -/
def chooseCopy (x : Site) (n : FrameNo) (slot : SlotNo) (d : Device) : Device := handOver x slot (decideNumber n d)

/-- A frame declared MISSING (R47). -/
def declareMissing (x : Site) (n : FrameNo) (d : Device) : Device := count x .frameDecided 6 (decideNumber n d)

/-- An entry decided as at the end of its wait (R44). -/
def endWait (x : Site) (e : PairEntry) (d : Device) : Device :=
  match e.held with
  | some (slot, _) => chooseCopy x e.number slot d
  | none => declareMissing x e.number d

/-- The oldest entry of a full table decided, to make room for a new one (R37). -/
def makeRoom (x : Site) (d : Device) : Device :=
  match d.sel.table with
  | [] => d
  | e :: _ => if Config.pairingSize ≤ d.sel.table.length then endWait x e d else d

/-- A new entry at the end of the creation order (R35, R37). -/
def createEntry (x : Site) (e : PairEntry) (d : Device) : Device :=
  let d1 := makeRoom x d
  d1.setSel { d1.sel with table := d1.sel.table ++ [e] }

/-- A pairing entry replaced. -/
def putEntry (e : PairEntry) (d : Device) : Device :=
  d.setSel { d.sel with table := d.sel.table.map (fun o => if o.number == e.number then e else o) }

/-- The wait of an entry that holds a copy, before it is tested against 0 (R36). -/
def heldWait (x : Site) (r : Record) : Int :=
  min (x.pairWait : Int) (leadOf x.tb (stampDue x (r.stamp.getD (0, 0))) - x.timing.guard)

/-! ### Taking a copy (R38 to R43) -/

/-- An entry's damaged-seen flag for a feed. -/
def PairEntry.damagedSeen (e : PairEntry) : Feed → Bool
  | .a => e.damagedA
  | .b => e.damagedB

/-- The other feed. -/
def otherFeed : Feed → Feed
  | .a => .b
  | .b => .a

/-- A new entry that a damaged copy makes, and its end at once when the pairing wait is 0 (R36, R40, R43) (DEDUCED, entry 16). -/
def createDamaged (x : Site) (n : FrameNo) (f : Feed) (d : Device) : Device :=
  let e : PairEntry := ⟨n, none, f == .a, f == .b, x.pairWait⟩
  let d1 := createEntry x e d
  if x.pairWait = 0 then endWait x e d1 else d1

/-- A DAMAGED copy after its slot was freed (R40, R43). -/
def takeDamaged (x : Site) (n : FrameNo) (f : Feed) (d : Device) : Device :=
  match findEntry n d with
  | none => createDamaged x n f d
  | some e =>
    match e.held with
    | some (slot, _) => if f = .a && x.selMode = .primaryA then chooseCopy x n slot d else d
    | none => if e.damagedSeen (otherFeed f) then declareMissing x n d else d

/-- A VALID copy handed to admission at once; a copy its entry held is freed as a DUPLICATE (R39, R41, R42). -/
def takeAtOnce (x : Site) (n : FrameNo) (slot : SlotNo) (d : Device) : Device :=
  let d1 := match (findEntry n d).bind (·.held) with
    | some (held, _) => freeDuplicate x held d
    | none => d
  chooseCopy x n slot d1

/-- A VALID B copy in PRIMARY_A with feed A in SYNC that no entry keeps from waiting: held, or handed over when its wait is over already
(R36, R42). -/
def holdCopy (x : Site) (n : FrameNo) (slot : SlotNo) (entry : Option PairEntry) (d : Device) : Device :=
  let w := heldWait x d.slots[slot]
  if w ≤ 0 then chooseCopy x n slot d
  else
    let d1 := setSlotState slot .pending d
    match entry with
    | some e => putEntry { e with held := some (slot, .b), wait := w.toNat } d1
    | none => createEntry x ⟨n, some (slot, .b), false, false, w.toNat⟩ d1

/-- A VALID B copy in PRIMARY_A (R42). -/
def takeSecondary (x : Site) (n : FrameNo) (slot : SlotNo) (d : Device) : Device :=
  if !d.intakeA.inSync then takeAtOnce x n slot d
  else match findEntry n d with
    | none => holdCopy x n slot none d
    | some e =>
      if e.damagedA then takeAtOnce x n slot d
      else if e.held.isSome then freeDuplicate x slot d
      else holdCopy x n slot (some e) d

/-- A copy completed by an intake, with its verdict (R38). -/
def takeCopy (x : Site) (f : Feed) (slot : SlotNo) (valid : Bool) (d : Device) : Device :=
  let n := (d.slots[slot]).frameNo
  if d.sel.decided.contains n then freeDuplicate x slot d
  else if !valid then takeDamaged x n f (freeSlot slot d)
  else match x.selMode, f with
    | .primaryA, .b => takeSecondary x n slot d
    | _, _ => takeAtOnce x n slot d

/-! ### The end of a wait, the loss of feed A, and a change of mode (R44 to R46) -/

/-- PAIRING_WAIT_END (R44): an entry whose wait has reached 0 is decided. -/
def execPairingWaitEnd (n : FrameNo) (s : State) : Host.Outcome State Fault Refusal :=
  match findEntry n s.dev with
  | none => .next s
  | some e => if e.wait = 0 then .next (s.setDev (endWait s.site e s.dev)) else .next s

/-- Every entry that holds a copy decided, oldest first (R45, R46). -/
def decideHeld (x : Site) (d : Device) : Device :=
  (d.sel.table.filter (fun e => e.held.isSome)).foldl (fun d e => endWait x e d) d

/-- The selector's share of a loss of SYNC (R45). -/
def selectorSyncLoss (x : Site) (f : Feed) (d : Device) : Device :=
  if f = .a && x.selMode = .primaryA then decideHeld x d else d

/-- The owner of SetSelector (R33, R46). -/
def ownSetSelector (r : Request) (s : State) : Answer :=
  let mode : Option SelMode := match (byteAt r.body 0).toNat with
    | 1 => some .firstValid | 2 => some .primaryA | _ => none
  match mode with
  | none => .refuse s .badField
  | some m =>
    let w := fieldAt r.body 1 4
    let w1 := min w 5000000
    let x := { s.site with selMode := m, pairWait := w1 }
    let d := if s.site.selMode = .primaryA && m = .firstValid then decideHeld x s.dev else s.dev
    ⟨(s.setSite x).setDev d, if w1 = w then .ok else .okClamped,
      if w1 = w then [] else beBytes 1 (byteAt r.body 0).toNat ++ beBytes 4 w1⟩

/-- SET_SELECTOR (R33). -/
def execSetSelector (p : Port) (s : State) : Host.Outcome State Fault Refusal := serve .setSelector p ownSetSelector s

/-- The selector's share of SiteRestart (R48). -/
def selectorRestart (d : Device) : Device :=
  let d1 := d.sel.table.foldl (fun d e => match e.held with
    | some (slot, _) => freeSlot slot d
    | none => d) d
  d1.setSel ⟨[], []⟩

end Sys2Proof.Machine
end

