-- ==== Sys2Proof/WellFormed.lean ====
section
/-! DEFINITION. Which commands a sender can give: the runs of bytes an operand carries have the length the formats give them. -/

namespace Sys2Proof

/-- Bytes of one cell position: at least one, and at most 176 (section 1.2). -/
def Instr.cellSized (bytes : Bytes) : Bool := 1 ≤ bytes.length && bytes.length ≤ Config.cellBytes

/-- The bytes of one arrival on a management line: at least one, and no more than the longest frame, 1,031 (section 1.6). -/
def Instr.lineRun (bytes : Bytes) : Bool := 1 ≤ bytes.length && bytes.length ≤ Config.maxBody + 7

/-- A command whose operands the device's ports can deliver. -/
def Instr.wellFormed : Instr → Bool
  | .feedCellPosition _ bytes => Instr.cellSized bytes
  | .mgmtFrameReceived _ bytes => Instr.lineRun bytes
  | .bodyLengthOverLimit _ bytes => Instr.lineRun bytes
  | _ => true

end Sys2Proof
end

