-- ==== Sys2Proof/Machine/Intake.lean ====
section
/-! DEFINITION. The cell intakes and the identifier window table (chapter 2): delineation, arrival, the head of the FIFO, windows,
continuity and cues, completion, the loss of SYNC, SetWindow and SetDefaultAction. -/

namespace Sys2Proof.Machine

/-- The device with the intake of a feed changed. -/
def updIntake (f : Feed) (g : Intake → Intake) (d : Device) : Device := d.setIntake f (g (d.intake f))

/-- The sub-event bit of a feed. -/
def feedBit : Feed → Nat
  | .a => 0
  | .b => 1

/-! ### Completion (R29, R30) -/

/-- Position `i` of a frame is a hole (R28). -/
def Record.hole (r : Record) (i : Nat) : Bool := !r.headers.any (fun h => h.pos == i)

/-- The damage cause set of a frame as completion leaves it: what arrival noted, the holes, and then the check (R29, R30). -/
def finalDamage (r : Record) (a : ArrivalFrame) : Damage :=
  let dmg := { r.damage with
    overrun := r.damage.overrun || a.overrun
    syncLoss := r.damage.syncLoss || a.syncLoss
    missing := r.damage.missing || (List.range r.declared).any (fun i => r.hole (i + 1)) }
  if dmg = Damage.empty && r.running != r.expected then { dmg with check := true } else dmg

/-- A frame with a slot completes: it is judged, counted and handed to the selector (R29, R30). -/
def completeFrame (x : Site) (f : Feed) (slot : SlotNo) (d : Device) : Device :=
  let i := d.intake f
  let dmg := finalDamage d.slots[slot] (i.arrivals.headD ⟨0, true, false, false⟩)
  let d1 := d.setIntake f { i with assembly := none, arrivals := i.arrivals.drop 1 }
  let d2 := d1.updSlot slot (fun r => { r with damage := dmg, completed := some x.tb.now })
  takeCopy x f slot (dmg = Damage.empty) (countComplete x f (dmg = Damage.empty) d2)

/-- The FIFO holds no entry of the frame being assembled. -/
def Intake.drained (i : Intake) : Bool :=
  match i.fifo with
  | .data _ :: _ => false
  | _ => true

/-- The frame being assembled completes when its taking has ended and none of its entries remains (R29). -/
def checkComplete (x : Site) (f : Feed) (d : Device) : Device :=
  let i := d.intake f
  match i.assembly, i.arrivals with
  | some a, fr :: _ =>
    match a.slot with
    | some slot => if fr.ended && i.drained then completeFrame x f slot d else d
    | none => d
  | _, _ => d

/-! ### Arrival (R16, R17) -/

/-- A cell dropped and counted (R16, R17, R20). -/
def countDrop (x : Site) (sub : Nat) (d : Device) : Device := count x .cellDrop sub d

/-- The arrival frame whose taking has not ended. -/
def Intake.taking (i : Intake) : Option ArrivalFrame :=
  match i.arrivals.getLast? with
  | some a => if a.ended then none else some a
  | none => none

/-- A marker cell with a valid header that is not MARKER_BAD (R16, R17). -/
def arriveMarker (x : Site) (f : Feed) (cell : Bytes) (d : Device) : Device :=
  let i := d.intake f
  if Config.intakeFifoSize ≤ i.fifo.length then
    countDrop x 1 (d.setIntake f
      { i with arrivals := if i.taking.isSome then updLast (fun a => { a with overrun := true }) i.arrivals else i.arrivals })
  else
    checkComplete x f (d.setIntake f
      { i with
        arrivals := updLast (fun a => { a with ended := true }) i.arrivals
          ++ [⟨(parseMarker cell).count, false, false, false⟩]
        fifo := i.fifo ++ [.marker cell] })

/-- A data cell with a valid header (R16, R17). -/
def arriveData (x : Site) (f : Feed) (cell : Bytes) (d : Device) : Device :=
  let i := d.intake f
  match i.taking with
  | none => countDrop x 2 d
  | some a =>
    let ends := (parseHeader cell).index.toNat == a.declared
    if Config.intakeFifoSize ≤ i.fifo.length then
      checkComplete x f (countDrop x 1 (d.setIntake f
        { i with arrivals := updLast (fun a => { a with overrun := true, ended := a.ended || ends }) i.arrivals }))
    else
      d.setIntake f
        { i with
          arrivals := updLast (fun a => { a with ended := a.ended || ends }) i.arrivals
          fifo := i.fifo ++ [.data cell] }

/-- A cell delineated in SYNC (R16). -/
def arriveCell (x : Site) (f : Feed) (cell : Bytes) (d : Device) : Device :=
  if !headerValid cell then countDrop x 0 d
  else if (parseHeader cell).sid = Config.markerSid then
    if markerBad (parseMarker cell) then countDrop x 0 d else arriveMarker x f cell d
  else arriveData x f cell d

/-! ### Delineation (R13, R14) -/

/-- The intake enters SYNC with the third sync byte, the first byte of the cell that is arriving, and every continuity entry becomes
unknown (R13, R26); FEED_DOWN and OUTPUT_NOT_ON_AIR fall together (DESIGN CHOICE, entry 24). -/
def enterSync (x : Site) (f : Feed) (d : Device) : Device :=
  refresh x (updIntake f (fun i =>
    { i with
      delin := .sync, since := 0, found := 0, misses := 0, silence := 0, cellSoFar := [Config.syncByte], continuity := [] }) d)

/-- The intake leaves SYNC: the cell then arriving is abandoned, the frame then arriving is ended and damaged, held B copies are handed
over, and the output mode may change (R14, R31, R45, R75); FEED_DOWN and OUTPUT_NOT_ON_AIR rise together (DESIGN CHOICE, entry 24). -/
def leaveSync (x : Site) (f : Feed) (d : Device) : Device :=
  let d1 := refresh x (updIntake f (fun i =>
    { i with
      delin := .hunt, since := 0, found := 0, misses := 0, silence := 0, cellSoFar := []
      arrivals := if i.taking.isSome then updLast (fun a => { a with ended := true, syncLoss := true }) i.arrivals
        else i.arrivals }) d)
  afterModeChange x (selectorSyncLoss x f (checkComplete x f d1))

/-- One byte examined or passed over in HUNT or PRESYNC (R13). -/
def delineate (x : Site) (f : Feed) (d : Device) (b : Byte) : Device :=
  let i := d.intake f
  match i.delin with
  | .hunt => if b = Config.syncByte then d.setIntake f { i with delin := .presync, since := 0, found := 1 } else d
  | .presync =>
    if i.since + 1 < Config.cellBytes then d.setIntake f { i with since := i.since + 1 }
    else if b = Config.syncByte then
      if 3 ≤ i.found + 1 then enterSync x f d else d.setIntake f { i with since := 0, found := i.found + 1 }
    else d.setIntake f { i with delin := .hunt, since := 0, found := 0 }
  | .sync => d

/-- FEED_DELINEATION_BYTE (R13, R15). -/
def execFeedDelineationByte (f : Feed) (b : Byte) (s : State) : Host.Outcome State Fault Refusal :=
  match s.site.phase with
  | .held => .next s
  | .running => .next (s.setDev (delineate s.site f s.dev b))

/-- The count of consecutive misses after the first byte of a cell position is examined (R14). -/
def missesAfter (misses : Nat) (first : Byte) : Nat := if first = Config.syncByte then 0 else misses + 1

/-- The cell position that is arriving has its last byte: it is a cell, or the position of a miss (R14). -/
def endPosition (x : Site) (f : Feed) (cell : Bytes) (d : Device) : Device :=
  if byteAt cell 0 = Config.syncByte then arriveCell x f cell d else countDrop x 0 d

/-- Bytes of the cell position that is arriving join those already there; the last completes it (R14). -/
def joinCell (x : Site) (f : Feed) (bytes : Bytes) (d : Device) : Device :=
  let cell := (d.intake f).cellSoFar ++ bytes
  if cell.length < Config.cellBytes then updIntake f (fun i => { i with cellSoFar := cell }) d
  else endPosition x f cell (updIntake f (fun i => { i with cellSoFar := [] }) d)

/-- Bytes of one cell position in SYNC: the first byte of the position is examined, and the fourth miss in a row loses SYNC (R14) (DESIGN
CHOICE, entry 3). -/
def cellPosition (x : Site) (f : Feed) (bytes : Bytes) (d : Device) : Device :=
  let d0 := updIntake f (fun i => { i with silence := 0 }) d
  if !(d0.intake f).cellSoFar.isEmpty then joinCell x f bytes d0
  else
    let m := missesAfter (d0.intake f).misses (byteAt bytes 0)
    if m < 4 then joinCell x f bytes (updIntake f (fun i => { i with misses := m }) d0)
    else (bytes.drop 1).foldl (delineate x f) (leaveSync x f d0)

/-- FEED_CELL_POSITION (R14, R15, R16): some bytes of one position, and no more than are left of it. -/
def execFeedCellPosition (f : Feed) (bytes : Bytes) (s : State) : Host.Outcome State Fault Refusal :=
  if s.site.phase = .running && (s.dev.intake f).inSync && Instr.cellSized bytes
      && (s.dev.intake f).cellSoFar.length + bytes.length ≤ Config.cellBytes then
    .next (s.setDev (cellPosition s.site f bytes s.dev))
  else .next s

/-- FEED_SILENCE (R14): 100,000 ticks in SYNC without a byte. -/
def execFeedSilence (f : Feed) (s : State) : Host.Outcome State Fault Refusal :=
  if (s.dev.intake f).inSync && Config.feedSilenceTicks ≤ (s.dev.intake f).silence then
    .next (s.setDev (leaveSync s.site f s.dev))
  else .next s

/-! ### A marker at the head (R19, R20) -/

/-- The programme snapshot: the enabled programmes' cue and component SIDs (R19). -/
def programmeSnapshot (x : Site) : List ProgSnap :=
  (List.finRange 8).filterMap (fun p =>
    if (x.progs[p]).enabled then some ⟨p, (x.progs[p]).cueSid, (x.progs[p]).comps⟩ else none)

/-- A SID is a component SID of a snapshot (R26). -/
def isComponent (snap : List ProgSnap) (sid : Sid) : Bool := snap.any (fun g => g.comps.contains (some sid))

/-- A frame record filled from its marker (R19, step 3). -/
def openRecord (f : Feed) (cell : Bytes) : Record :=
  let m := parseMarker cell
  { Record.empty with
    state := .assembling
    feed := some f
    number := some m.number
    stamp := some (m.stampSecs, m.stampTicks)
    declared := m.count
    marker := cell
    running := frameCheckInit
    expected := m.check
    damage := { Damage.empty with stampRange := Config.ticksPerSecond ≤ m.stampTicks } }

/-- The frame the assembly context holds completed, or its NO_SLOT ended, before the next marker is taken (R19, R20, R29). -/
def closeAssembly (x : Site) (f : Feed) (d : Device) : Device :=
  match (d.intake f).assembly with
  | none => d
  | some a => match a.slot with
    | some slot => completeFrame x f slot d
    | none => updIntake f (fun i => { i with assembly := none, arrivals := i.arrivals.drop 1 }) d

/-- A new assembly context opened by a marker (R19, R20). -/
def openFrame (x : Site) (f : Feed) (cell : Bytes) (d : Device) : Device :=
  let snap := programmeSnapshot x
  let slot := freeSlotNo d
  let d1 := match slot with
    | some i => d.updSlot i (fun _ => openRecord f cell)
    | none => d
  checkComplete x f (updIntake f (fun i =>
    { i with
      fifo := i.fifo.drop 1
      assembly := some ⟨slot, 1, x.windows, x.defaultAction, snap, none⟩
      continuity := i.continuity.filter (fun c => isComponent snap c.1) }) d1)

/-- INTAKE_MARKER_AT_HEAD (R18, R19). -/
def execIntakeMarkerAtHead (f : Feed) (s : State) : Host.Outcome State Fault Refusal :=
  match (s.dev.intake f).fifo with
  | .marker cell :: _ => .next (s.setDev (openFrame s.site f cell (closeAssembly s.site f s.dev)))
  | _ => .next s

/-! ### Windows (R23, R24, R28) -/

/-- A window hits a cell (R23). -/
def Window.hits (w : Window) (f : Feed) (sid : Sid) : Bool :=
  w.enabled
    && (w.feeds == .both || (w.feeds == .onlyA && f == .a) || (w.feeds == .onlyB && f == .b))
    && (sid &&& w.mask) == (w.base &&& w.mask)

/-- The winning hit: LOAD over DROP over CARRY, then the lowest-numbered window (R23). -/
def winningWindow (ws : Vector Window 16) (f : Feed) (sid : Sid) : Option Window :=
  let hit (k : WindowKind) : Option Window := ws.toList.find? (fun w => w.hits f sid && w.kind == k)
  (hit .load).or ((hit .drop).or (hit .carry))

/-- The SID a CARRY window gives a cell (R24). -/
def Window.carrySid (w : Window) (sid : Sid) : Sid :=
  match w.translate with
  | some t => (t &&& w.mask) ||| (sid &&& ~~~w.mask)
  | none => sid

/-- A cell with its SID replaced and nothing else changed (R24). -/
def withSid (sid : Sid) (c : Bytes) : Bytes :=
  byteAt c 0 :: sid.extractLsb' 4 8 :: (sid.extractLsb' 0 4 ++ (byteAt c 2).extractLsb' 0 4) :: c.drop 3

/-- What becomes of a cell under the windows (R23, R24). -/
inductive Treatment where
  | carry (sid : Sid)
  | drop
  | load
deriving DecidableEq, Repr

/-- The treatment of a cell by a frame's window snapshot (R23, R24). -/
def treatment (a : Assembly) (f : Feed) (sid : Sid) : Treatment :=
  match winningWindow a.windows f sid with
  | none => match a.defaultAction with
    | .carry => .carry sid
    | .drop => .drop
  | some w => match w.kind with
    | .carry => .carry (w.carrySid sid)
    | .drop => .drop
    | .load => .load

/-- The owner of a written SID: the lowest-numbered programme of the snapshot with it as a component (R28). -/
def ownerOf (snap : List ProgSnap) (sid : Sid) : Option (ProgNo × Fin 8) :=
  snap.findSome? (fun g => (vfind g.comps (fun c => c == some sid)).map (fun c => (g.prog, c)))

/-- What a position is to hold once its burst completes: the cell, and its header list entry (R18, R24, R28). -/
structure Writing where
  cell : Bytes
  entry : HeaderEntry
deriving DecidableEq, Repr

/-- What a null in position `pos` writes (R24, R28). -/
def nullWriting (pos : Nat) : Writing := ⟨nullCell pos, ⟨pos, Config.nullSid, .null, none, false⟩⟩

/-- A cell written on a SID is a null cell: SID 4094, qualifier NULL and a payload of zeros (section 1.2). -/
def isNullCell (sid : Sid) (cell : Bytes) : Bool :=
  sid == Config.nullSid && (parseHeader cell).qual == .null && (payloadOf cell).all (· == 0)

/-- What a carried cell writes (R24, R28). -/
def carryWriting (a : Assembly) (pos : Nat) (sid : Sid) (cell : Bytes) : Writing :=
  let h := parseHeader cell
  ⟨if sid = h.sid then cell else withSid sid cell,
    ⟨pos, sid, h.qual, if isNullCell sid cell then none else ownerOf a.progs sid, false⟩⟩

/-! ### A data cell at the head (R18, R21, R22, R26, R27) -/

/-- The continuity check of an accepted cell (R26). -/
def checkContinuity (x : Site) (f : Feed) (a : Assembly) (h : Header) (d : Device) : Device :=
  if h.qual == .payload && isComponent a.progs h.sid then
    let known := (d.intake f).continuity.find? (fun c => c.1 == h.sid)
    let mismatch := match known with
      | some (_, e) => !h.disc && h.cont != e
      | none => false
    let d1 := if mismatch then count x .continuity (feedBit f) d else d
    updIntake f (fun i => { i with continuity := i.continuity.filter (fun c => c.1 != h.sid) ++ [(h.sid, h.cont + 1)] }) d1
  else d

/-- Cue extraction from an accepted cell (R27). -/
def extractCue (x : Site) (slot : SlotNo) (a : Assembly) (h : Header) (cell : Bytes) (d : Device) : Device :=
  if h.qual == .signal && a.progs.any (fun g => g.cueSid == some h.sid) then
    if (d.slots[slot]).cues.length < Config.cueListSize then
      d.updSlot slot (fun r => { r with cues := r.cues ++ [⟨h.sid, h.index.toNat, payloadOf cell⟩] })
    else count x .cue 6 d
  else d

/-- An accepted cell treated by the windows: what its position is to hold, and what is counted or loaded (R24). -/
def applyWindows (x : Site) (f : Feed) (a : Assembly) (pos : Nat) (cell : Bytes) (d : Device) : Writing × Device :=
  match treatment a f (parseHeader cell).sid with
  | .carry sid => (carryWriting a pos sid cell, d)
  | .drop => (nullWriting pos, countDrop x 3 d)
  | .load => (nullWriting pos, offerLoadCell x f cell d)

/-- The head entry of a FIFO leaves it. -/
def popFifo (f : Feed) (d : Device) : Device := updIntake f (fun i => { i with fifo := i.fifo.drop 1 }) d

/-- A cell accepted into its position: check, continuity, cue and windows, then its burst is asked for (R18, R21, R22). A cell on a LOAD
window makes the loader's request first and the intake's after it (R98) (DESIGN CHOICE, entry 28). -/
def acceptCell (x : Site) (f : Feed) (slot : SlotNo) (a : Assembly) (cell : Bytes) (d : Device) : Device :=
  let h := parseHeader cell
  let pos := h.index.toNat
  let d1 := d.updSlot slot (fun r =>
    { r with
      running := frameCheckMore r.running cell
      damage := { r.damage with missing := r.damage.missing || a.next < pos } })
  let d2 := extractCue x slot a h cell (checkContinuity x f a h d1)
  let (w, d3) := applyWindows x f a pos cell d2
  let d4 := updIntake f (fun i => { i with assembly := some { a with next := pos + 1, writing := some w.entry } }) d3
  match slotPlace pos with
  | some pl => ask x (intakeRequestor f) (.intake slot pl w.cell) d4
  | none => d4

/-- A data cell at the head of the FIFO (R18, R20, R22). -/
def headCell (x : Site) (f : Feed) (cell : Bytes) (d : Device) : Device :=
  match (d.intake f).assembly with
  | none => countDrop x 2 (popFifo f d)
  | some a =>
    match a.slot with
    | none => countDrop x 2 (popFifo f d)
    | some slot =>
      let i := (parseHeader cell).index.toNat
      if (d.slots[slot]).declared < i || i < a.next then
        checkComplete x f (popFifo f (d.updSlot slot (fun r => { r with damage := { r.damage with overlong := true } })))
      else acceptCell x f slot a cell d

/-- The head cell of an intake already waits for its burst. -/
def Intake.busy (i : Intake) : Bool := i.assembly.any (fun a => a.writing.isSome)

/-- INTAKE_CELL_AT_HEAD (R18, R22) (DEDUCED, entry 16). -/
def execIntakeCellAtHead (f : Feed) (s : State) : Host.Outcome State Fault Refusal :=
  match (s.dev.intake f).fifo with
  | .data cell :: _ =>
    if (s.dev.intake f).busy || s.dev.arb.outstanding (intakeRequestor f) then .next s
    else .next (s.setDev (headCell s.site f cell s.dev))
  | _ => .next s

/-- The effect of an intake burst: the cell in its position is counted and described, and its entry leaves the FIFO (R18, R28). -/
def intakeWrite (f : Feed) (slot : SlotNo) (d : Device) : Device :=
  match (d.intake f).assembly with
  | none => d
  | some a =>
    match a.writing with
    | none => d
    | some e =>
      let d1 := d.updSlot slot (fun r => { r with written := r.written + 1, headers := r.headers ++ [e] })
      popFifo f (updIntake f (fun i => { i with assembly := some { a with writing := none } }) d1)

/-- INTAKE_BURST_COMPLETE (R18, R96): the cell is in its position, and the burst has its effect unless that is discarded (R90). -/
def execIntakeBurstComplete (f : Feed) (s : State) : Host.Outcome State Fault Refusal :=
  match s.dev.arb.current with
  | some ⟨r, .intake i pl cell, keep⟩ =>
    let d := s.dev.store (.intake i pl cell)
    if r ≠ intakeRequestor f then .next s
    else if keep then .next (s.setDev (checkComplete s.site f (endBurst s.site (intakeWrite f i d))))
    else .next (s.setDev (endBurst s.site d))
  | _ => .next s

/-! ### SetWindow, SetDefaultAction (R25) and SiteRestart (R32) -/

/-- The owner of SetWindow (R25). -/
def ownSetWindow (r : Request) (s : State) : Answer :=
  match readWindow r.body with
  | none => .refuse s .badField
  | some (i, w) => .ok (s.setSite { s.site with windows := s.site.windows.set i w })

/-- SET_WINDOW (R25). -/
def execSetWindow (p : Port) (s : State) : Host.Outcome State Fault Refusal := serve .setWindow p ownSetWindow s

/-- The owner of SetDefaultAction (R25). -/
def ownSetDefaultAction (r : Request) (s : State) : Answer :=
  match (byteAt r.body 0).toNat with
  | 1 => .ok (s.setSite { s.site with defaultAction := .carry })
  | 2 => .ok (s.setSite { s.site with defaultAction := .drop })
  | _ => .refuse s .badField

/-- SET_DEFAULT_ACTION (R25). -/
def execSetDefaultAction (p : Port) (s : State) : Host.Outcome State Fault Refusal :=
  serve .setDefaultAction p ownSetDefaultAction s

/-- One intake's share of SiteRestart (R32). -/
def intakeRestart (d : Device) (f : Feed) : Device :=
  let d1 := match (d.intake f).assembly.bind (·.slot) with
    | some slot => freeSlot slot d
    | none => d
  d1.setIntake f Intake.reset

end Sys2Proof.Machine
end

