-- ==== Sys2Proof/Machine/Timebase.lean ====
section
/-! DEFINITION. The site timebase (chapter 4): the reference pulse and its effect in each discipline state, the missing-pulse check,
second boundaries, the reference monitor, notices, SetTime and SetTimebase. -/

namespace Sys2Proof.Machine

/-! ### One tick (R14, R36, R49, R170) -/

/-- What one period of the counting source does outside the timebase: pairing waits count down, and silences count up (R14, R36,
R170). -/
def elapse (d : Device) : Device :=
  let feed (i : Intake) : Intake := if i.inSync then { i with silence := i.silence + 1 } else i
  let line (p : PortState) : PortState :=
    if p.rx.state = .seek then p else { p with rx := { p.rx with silence := p.rx.silence + 1 } }
  { d with
    intakeA := feed d.intakeA
    intakeB := feed d.intakeB
    sel := { d.sel with table := d.sel.table.map (fun e => { e with wait := e.wait - 1 }) }
    net := line d.net
    maint := line d.maint }

/-! ### Alignment (R52) -/

/-- The phase error of a pulse read at tick count `t` (R51). -/
def phaseError (t : Nat) : Int := if t < 5000000 then t else (t : Int) - 10000000

/-- The seconds count raised by one, with the round of the count it then lies in (R49). -/
def Timebase.nextSecond (tb : Timebase) : Timebase :=
  { tb with secs := tb.secs + 1, era := if tb.secs = 0xFFFFFFFF then tb.era + 1 else tb.era }

/-- Site time aligned on a pulse with phase error `e` (R52). -/
def Timebase.align (tb : Timebase) (e : Int) : Timebase :=
  if 0 ≤ e then { tb with ticks := 0 } else { tb.nextSecond with ticks := 0 }

/-- Site time aligned to a label (R52). -/
def Timebase.alignTo (tb : Timebase) (l : BitVec 32) : Timebase := { tb with secs := l, ticks := 0 }

/-- The timebase in ACQUIRING with all counts at 0. -/
def Timebase.acquire (tb : Timebase) : Timebase := { tb with disc := .acquiring, good := 0, outliers := 0, holdover := 0 }

/-! ### Events on the discipline state (R54 to R59) -/

/-- What an event did: the timebase after it, the amount of a step, and the change of trust (R63, R64). -/
structure TimeEvent where
  tb : Timebase
  step : Option Int
  change : TrustChange
deriving DecidableEq, Repr

/-- An event without step or change of trust. -/
def TimeEvent.quiet (tb : Timebase) : TimeEvent := ⟨tb, none, .none⟩

/-- A step from `old` to `new`; it ends trust where `old` was trusted (R60, R63). -/
def TimeEvent.stepped (old new : Timebase) : TimeEvent := ⟨new, some (new.now - old.now), if old.trusted then .lost else .none⟩

/-- A second boundary acts on the discipline state: in HOLDOVER it is counted, and the limit brings EXPIRED (R57). -/
def boundary (tb : Timebase) : TimeEvent :=
  if tb.disc = .holdover then
    if tb.holdoverLimit ≤ tb.holdover + 1 then ⟨{ tb with disc := .expired, holdover := 0 }, none, .lost⟩
    else .quiet { tb with holdover := tb.holdover + 1 }
  else .quiet tb

/-- A plain alignment in its state, and after it the boundary that a negative phase error makes. In HOLDOVER that boundary is counted, as
R57 says, although R56 has a reference loss and a good pulse taken together end with holdover seconds at 0 (R52, R56, R57) (DESIGN CHOICE,
entry 26). -/
def plainAlign (tb : Timebase) (e : Int) : TimeEvent :=
  if 0 ≤ e then .quiet (tb.align e) else boundary (tb.align e)

/-- An outlier in LOCKED or HOLDOVER: the third in a row aligns as a step and ends trust (R56, R58). -/
def outlierPulse (tb : Timebase) (e : Int) : TimeEvent :=
  if tb.outliers + 1 = 3 then .stepped tb (tb.align e).acquire else .quiet { tb with outliers := tb.outliers + 1 }

/-- A pulse judged without a label to apply, by the rule of the discipline state (R54 to R59). -/
def judgePulse (tb : Timebase) (e : Int) (good : Bool) : TimeEvent :=
  match tb.disc with
  | .unset => plainAlign tb e
  | .acquiring =>
    if !good then .stepped tb { tb.align e with good := 0 }
    else if !tb.present then plainAlign { tb with good := 0 } e
    else if tb.pulsesToLock ≤ tb.good + 1 then
      { plainAlign { tb with good := tb.good + 1, outliers := 0, disc := .locked } e with change := .gained }
    else plainAlign { tb with good := tb.good + 1 } e
  | .locked => if good then plainAlign { tb with outliers := 0 } e else outlierPulse tb e
  | .holdover =>
    if !good then outlierPulse tb e
    else if tb.present then plainAlign { tb with disc := .locked, outliers := 0, holdover := 0 } e
    else plainAlign { tb with outliers := 0 } e
  | .expired => if tb.present then .stepped tb (tb.align e).acquire else .quiet tb

/-- The seconds an alignment without a label would give (R60). -/
def alignedSecs (tb : Timebase) (e : Int) : BitVec 32 := if 0 ≤ e then tb.secs else tb.secs + 1

/-- A pulse with the label it consumes, if one is pending (R54, R60). -/
def takePulse (tb : Timebase) (e : Int) (good : Bool) : TimeEvent :=
  let t := { tb with label := none, pulseSeen := true }
  match tb.label with
  | none => judgePulse t e good
  | some l =>
    if tb.disc = .unset then .quiet (t.alignTo l).acquire
    else if l = alignedSecs tb e then judgePulse t e good
    else .stepped t (t.alignTo l).acquire

/-- A second found without a pulse (R54 to R59). -/
def missPulse (tb : Timebase) : Timebase :=
  match tb.disc with
  | .acquiring => { tb with good := 0 }
  | .locked => { tb with disc := .holdover, holdover := 0 }
  | _ => tb

/-! ### Acting on an event (R63, R64) -/

/-- The event's timebase takes its place; a step is counted and latched, the conditions follow, and the release scheduler takes the notice
(R62 to R64). Conditions that the event changes are derived anew together, so that an Attention shows them all (DESIGN CHOICE, entry
24). -/
def applyEvent (ev : TimeEvent) (s : State) : State :=
  let x := { s.site with tb := ev.tb }
  let d1 := if ev.step.isSome then latch x timeStepBit (count x .time 3 s.dev) else refresh x s.dev
  let d2 := if ev.step.isSome || ev.change != .none then takeNotice x ⟨ev.step, ev.change⟩ d1 else d1
  (s.setSite x).setDev d2

/-- REFERENCE_PULSE (R51, R52, R54 to R60). -/
def execReferencePulse (s : State) : Host.Outcome State Fault Refusal :=
  let tb := s.site.tb
  let e := phaseError tb.ticks
  let good : Bool := e.natAbs ≤ tb.lockWindow
  .next (applyEvent (takePulse tb e good) (s.setDev (count s.site .time (if good then 0 else 1) s.dev)))

/-- MISSING_PULSE_CHECK (R53): made at the tick where T becomes W + 1. A pulse that aligns T to 0 on that tick, taken first, leaves the
check due: it is made, finds the pulse and clears the flag, so that the next check looks for another pulse (DESIGN CHOICE, entry 27). -/
def execMissingPulseCheck (s : State) : Host.Outcome State Fault Refusal :=
  let tb := s.site.tb
  if !tb.checkDue then .next s
  else
    let t := { tb with checkDue := false, pulseSeen := false }
    if tb.pulseSeen || tb.disc = .unset then .next (applyEvent (.quiet t) s)
    else .next (applyEvent (.quiet (missPulse t)) (s.setDev (count s.site .time 2 s.dev)))

/-- SECOND_BOUNDARY (R49, R57): the tick at which T wraps and S goes up by one. The wrap and the count of the holdover second are one
command, so a pulse taken with T = 0 finds the boundary taken, and one taken before it reads T = 9,999,999 (DESIGN CHOICE, entry 21). -/
def execSecondBoundary (s : State) : Host.Outcome State Fault Refusal :=
  let tb := s.site.tb
  if tb.ticks + 1 ≠ Config.ticksPerSecond then .next s
  else .next (applyEvent (boundary { tb.nextSecond with ticks := 0 }) (s.setDev (elapse s.dev)))

/-- REFERENCE_LOSS (R50, R55, R56). -/
def execReferenceLoss (s : State) : Host.Outcome State Fault Refusal :=
  let tb := s.site.tb
  if !tb.present then .next s
  else .next (applyEvent (.quiet (missPulse { tb with present := false })) s)

/-- REFERENCE_RETURN (R50). -/
def execReferenceReturn (s : State) : Host.Outcome State Fault Refusal :=
  let tb := s.site.tb
  if tb.present then .next s else .next (applyEvent (.quiet { tb with present := true }) s)

/-! ### SetTime (R60) and SetTimebase (R61) -/

/-- The site with its timebase replaced. -/
def State.setTb (s : State) (tb : Timebase) : State := s.setSite { s.site with tb := tb }

/-- The owner of SetTime (R60). -/
def ownSetTime (r : Request) (s : State) : Answer :=
  .ok (s.setTb { s.site.tb with label := some (BitVec.ofNat 32 (fieldAt r.body 0 4)) })

/-- SET_TIME (R60). -/
def execSetTime (p : Port) (s : State) : Host.Outcome State Fault Refusal := serve .setTime p ownSetTime s

/-- The owner of SetTimebase (R61). A missing-pulse check that became due on this tick, under the window W replaced here, stays due and is
made (R53) (DESIGN CHOICE, entry 29). -/
def ownSetTimebase (r : Request) (s : State) : Answer :=
  let w := clampNat 1 1000 (fieldAt r.body 0 2)
  let n := clampNat 1 16 (fieldAt r.body 2 1)
  let h := clampNat 1 86400 (fieldAt r.body 3 4)
  let used := beBytes 2 w ++ beBytes 1 n ++ beBytes 4 h
  let t := s.setTb { s.site.tb with lockWindow := w, pulsesToLock := n, holdoverLimit := h }
  if used = r.body then .ok t else ⟨t, .okClamped, used⟩

/-- SET_TIMEBASE (R61). -/
def execSetTimebase (p : Port) (s : State) : Host.Outcome State Fault Refusal := serve .setTimebase p ownSetTimebase s

end Sys2Proof.Machine
end

