-- ==== Sys2Proof/Machine/Control.lean ====
section
/-! DEFINITION. Site control (chapter 11): reading the device, masks and conditions, control and lockout, the phase, SiteRestart and the
reset line. -/

namespace Sys2Proof.Machine

/-! ### Reading (R181, R182) -/

/-- The code of the phase (R181). -/
def Phase.code : Phase → Nat
  | .held => 0
  | .running => 1

/-- The code of the holder of control (R181). -/
def Control.code : Control → Nat
  | .network => 0
  | .local_ => 1

/-- The phase, control and condition fields of ReadStatus on port `p` (R181). -/
def statusSite (p : Port) (s : State) : Bytes :=
  beBytes 1 s.site.phase.code ++ beBytes 1 s.control.code ++ beBytes 1 (flagCode s.lockout)
    ++ beBytes 2 (conditionWord s.site s.dev).toNat ++ beBytes 2 (s.dev.port p).mask.toNat
    ++ beBytes 1 (flagCode (s.dev.port p).summary)

/-- The timebase fields of ReadStatus (R65, R181). -/
def statusTime (tb : Timebase) : Bytes :=
  beBytes 1 tb.disc.code ++ beBytes 1 (flagCode tb.present) ++ beBytes 4 tb.secs.toNat ++ beBytes 3 tb.ticks
    ++ beBytes 1 tb.good ++ beBytes 1 tb.outliers ++ beBytes 3 tb.holdover
    ++ beBytes 1 (flagCode tb.label.isSome) ++ beBytes 4 (match tb.label with | some l => l.toNat | none => 0)

/-- The output and feed fields of ReadStatus (R75, R181). -/
def statusOutput (x : Site) (d : Device) : Bytes :=
  beBytes 1 (outputMode x d).code ++ beBytes 1 x.hostChoice.code
    ++ beBytes 1 (flagCode (muteHost x) + 2 * flagCode (muteTime x) + 4 * flagCode (muteNoFeed d))
    ++ beBytes 1 d.intakeA.delin.code ++ beBytes 1 d.intakeB.delin.code

/-- The pool and record fields of ReadStatus (R89, R181). -/
def statusPools (d : Device) : Bytes :=
  beBytes 1 d.em.credits
    ++ beBytes 1 (slotCount d .free) ++ beBytes 1 (slotCount d .assembling) ++ beBytes 1 (slotCount d .pending)
    ++ beBytes 1 (slotCount d .queued) ++ beBytes 1 (slotCount d .splicing) ++ beBytes 1 (slotCount d .emitting)
    ++ beBytes 2 d.cat.freeList.length ++ writePriorities d.arb.initial
    ++ beBytes 1 d.asrun.queue.length ++ beBytes 1 (vcount d.asrun.drafts Option.isSome)
    ++ beBytes 4 d.asrun.next.toNat ++ beBytes 4 d.asrun.lost

/-- The owner of ReadStatus (R181). -/
def ownReadStatus (p : Port) (_r : Request) (s : State) : Answer :=
  ⟨s, .ok, statusSite p s ++ statusTime s.site.tb ++ statusOutput s.site s.dev ++ statusPools s.dev⟩

/-- READ_STATUS (R181). -/
def execReadStatus (p : Port) (s : State) : Host.Outcome State Fault Refusal := serve .readStatus p (ownReadStatus p) s

/-- The fixed figures of the part (R182). -/
def identity : Bytes :=
  beBytes 2 0x2640 ++ beBytes 1 1 ++ beBytes 1 40 ++ beBytes 2 256 ++ beBytes 2 1024 ++ beBytes 2 4096 ++ beBytes 1 64
    ++ beBytes 1 4 ++ beBytes 1 32 ++ beBytes 1 64 ++ beBytes 2 256 ++ beBytes 1 32 ++ beBytes 1 8 ++ beBytes 1 8 ++ beBytes 1 16

/-- The owner of ReadIdentity (R182). -/
def ownReadIdentity (_r : Request) (s : State) : Answer := ⟨s, .ok, identity⟩

/-- READ_IDENTITY (R182). -/
def execReadIdentity (p : Port) (s : State) : Host.Outcome State Fault Refusal := serve .readIdentity p ownReadIdentity s

/-! ### Masks and conditions (R178, R179) -/

/-- The condition word a two-byte body holds. -/
def bodyWord (r : Request) : BitVec 16 := BitVec.ofNat 16 (fieldAt r.body 0 2)

/-- The owner of SetMask on port `p` (R179). -/
def ownSetMask (p : Port) (r : Request) (s : State) : Answer :=
  let mask := bodyWord r &&& conditionBits
  let d := s.dev.setPort p (refreshPort (conditionWord s.site s.dev) { s.dev.port p with mask := mask })
  ⟨s.setDev d, .ok, beBytes 2 mask.toNat⟩

/-- SET_MASK (R179). -/
def execSetMask (p : Port) (s : State) : Host.Outcome State Fault Refusal := serve .setMask p (ownSetMask p) s

/-- The owner of ClearConditions (R178). -/
def ownClearConditions (r : Request) (s : State) : Answer :=
  let d := refresh s.site { s.dev with latched := s.dev.latched &&& ~~~(bodyWord r) }
  ⟨s.setDev d, .ok, beBytes 2 (conditionWord s.site d).toNat⟩

/-- CLEAR_CONDITIONS (R178). -/
def execClearConditions (p : Port) (s : State) : Host.Outcome State Fault Refusal := serve .clearConditions p ownClearConditions s

/-! ### Control and lockout (R176, R177) -/

/-- Control moves to a holder, and the move latches CONTROL_CHANGE where `latched` says so (R176). -/
def moveControl (c : Control) (latched : Bool) (s : State) : State :=
  let t := { s with control := c }
  if latched then t.setDev (latch s.site controlChangeBit s.dev) else t

/-- The owner of TakeLocal (R176). -/
def ownTakeLocal (_r : Request) (s : State) : Answer :=
  if s.lockout then .refuse s .lockedOut else .ok (moveControl .local_ (s.control == .network) s)

/-- TAKE_LOCAL (R176). -/
def execTakeLocal (p : Port) (s : State) : Host.Outcome State Fault Refusal := serve .takeLocal p ownTakeLocal s

/-- The owner of ReturnRemote (R176). -/
def ownReturnRemote (_r : Request) (s : State) : Answer := .ok (moveControl .network false s)

/-- RETURN_REMOTE (R176). -/
def execReturnRemote (p : Port) (s : State) : Host.Outcome State Fault Refusal := serve .returnRemote p ownReturnRemote s

/-- The owner of ClaimRemote (R176). -/
def ownClaimRemote (_r : Request) (s : State) : Answer := .ok (moveControl .network (s.control == .local_) s)

/-- CLAIM_REMOTE (R176). -/
def execClaimRemote (p : Port) (s : State) : Host.Outcome State Fault Refusal := serve .claimRemote p ownClaimRemote s

/-- The owner of SetLockout (R177). -/
def ownSetLockout (r : Request) (s : State) : Answer :=
  match readFlag (byteAt r.body 0) with
  | none => .refuse s .badField
  | some true => .ok (moveControl .network (s.control == .local_) { s with lockout := true })
  | some false => .ok { s with lockout := false }

/-- SET_LOCKOUT (R177). -/
def execSetLockout (p : Port) (s : State) : Host.Outcome State Fault Refusal := serve .setLockout p ownSetLockout s

/-! ### The phase (R174, R175) -/

/-- The first setting that fails the validation of Release, with its code and programme field (R174). -/
def configFault (x : Site) : Option (Nat × Nat) :=
  if x.timing.period = 0 then some (1, 255)
  else (List.finRange 8).findSome? (fun p =>
    let g := x.progs[p]
    if !g.enabled then none
    else if g.cueSid.isNone then some (2, p.val)
    else if g.comps.toList.all Option.isNone then some (3, p.val)
    else none)

/-- The owner of Release (R174). -/
def ownRelease (_r : Request) (s : State) : Answer :=
  match configFault s.site with
  | some (code, prog) => ⟨s, .configInvalid, beBytes 1 code ++ beBytes 1 prog⟩
  | none => .ok (s.setSite { s.site with phase := .running })

/-- RELEASE (R174). -/
def execRelease (p : Port) (s : State) : Host.Outcome State Fault Refusal := serve .release p ownRelease s

/-- Every open draft takes the cause SITE_RESTART, one whose break closed before among them (R161) (DEDUCED, entry 23). -/
def restartDrafts (d : Device) : Device :=
  d.setAsRun { d.asrun with drafts := vmap (Option.map (fun t => { t with cause := .siteRestart })) d.asrun.drafts }

/-- The emission unit's and release scheduler's share of SiteRestart (R83). -/
def emissionRestart (x : Site) (d : Device) : Device :=
  let d1 := abandonItem x .removed d
  let d2 := d1.em.buffer.foldl (fun d i => removeFrame x false .removed i d) d1
  d2.setEm { Emission.reset with credits := x.timing.credits, output := d2.em.output }

/-- What SiteRestart leaves whatever its blocks found: every frame slot FREE (R91), every ring entry IDLE (R132) and the draft table empty
(R161). A draft still open is appended here, in the order of the table (DESIGN CHOICE, entry 32). -/
def settleRestart (x : Site) (d : Device) : Device :=
  let d1 := (List.finRange 40).foldl (fun d i => freeSlot i d) d
  (List.finRange 32).foldl (finishDraft x) ((List.finRange 256).foldl settleEntry d1)

/-- The device after SiteRestart, block by block (R32, R48, R83, R91, R117, R132, R154, R161, R175). The emission unit is taken before the
splice engine, so that a draft whose break had closed before is numbered and queued ahead of the ABORTED records of queued cues (R161,
R162) (DESIGN CHOICE, entry 32). The conditions that the intakes' loss of SYNC changes show together (DESIGN CHOICE, entry 24); those that
follow cues and records are derived as each cue leaves and each record is completed (R180) (DESIGN CHOICE, entry 33). -/
def restartDevice (x : Site) (d : Device) : Device :=
  let d1 := selectorRestart (intakeRestart (intakeRestart (restartDrafts d) .a) .b)
  refresh x (settleRestart x (abortLoads (spliceRestart x (emissionRestart x d1))))

/-- The owner of SiteRestart (R175). -/
def ownSiteRestart (_r : Request) (s : State) : Answer :=
  let x := { s.site with phase := .held }
  .ok ((s.setSite x).setDev (restartDevice x s.dev))

/-- SITE_RESTART (R175). -/
def execSiteRestart (p : Port) (s : State) : Host.Outcome State Fault Refusal := serve .siteRestart p ownSiteRestart s

/-- RESET_LINE: every part of the state takes its value after the reset line; the commands still waiting stay (R83, R91, R173) (DESIGN
CHOICE, entry 1). -/
def execResetLine (s : State) : Host.Outcome State Fault Refusal := .next { State.reset with pending := s.pending }

end Sys2Proof.Machine
end

