-- ==== Sys2Proof/Machine/Tick.lean ====
section
/-! DEFINITION. What the block does while no command waits: an event whose condition holds is put on the queue, and otherwise one tick of
the counting source passes. The opcode table has no row for a tick. -/

namespace Sys2Proof.Machine

/-- The row that answers a request of a kind. -/
def Kind.row (k : Kind) (p : Port) : Instr :=
  match k with
  | .readStatus => .readStatus p
  | .readIdentity => .readIdentity p
  | .setMask => .setMask p
  | .clearConditions => .clearConditions p
  | .takeLocal => .takeLocal p
  | .returnRemote => .returnRemote p
  | .claimRemote => .claimRemote p
  | .setLockout => .setLockout p
  | .release => .release p
  | .siteRestart => .siteRestart p
  | .queryList => .queryList p
  | .setWindow => .setWindow p
  | .setDefaultAction => .setDefaultAction p
  | .setSelector => .setSelector p
  | .setTimebase => .setTimebase p
  | .setTime => .setTime p
  | .setSite => .setSite p
  | .setOutputMode => .setOutputMode p
  | .setArbiter => .setArbiter p
  | .clipOpen => .clipOpen p
  | .clipData => .clipData p
  | .clipAbort => .clipAbort p
  | .clipDelete => .clipDelete p
  | .clipInfo => .clipInfo p
  | .catalogueRead => .catalogueRead p
  | .setSlot => .setSlot p
  | .listInsert => .listInsert p
  | .listRemove => .listRemove p
  | .listRead => .listRead p
  | .setProgramme => .setProgramme p
  | .cueAnswer => .cueAnswer p
  | .programmeReset => .programmeReset p
  | .asRunFetch => .asRunFetch p
  | .setCounter => .setCounter p
  | .snapshotCounters => .snapshotCounters p
  | .clearCounters => .clearCounters p

/-- A request refused when it was taken is answered at that instant (R172). -/
def refusedRow (p : Port) (d : Device) : Option Instr :=
  match (d.port p).service with
  | some v =>
    if v.refusal.isNone then none
    else match kindOf v.frame.kind with
      | none => some (.unknownKind p)
      | some k => some (k.row p)
  | none => none

/-- The head of an intake FIFO can be worked on (R18). -/
def headRow (f : Feed) (d : Device) : Option Instr :=
  match (d.intake f).fifo with
  | .marker _ :: _ => some (.intakeMarkerAtHead f)
  | .data _ :: _ =>
    if (d.intake f).busy || d.arb.outstanding (intakeRequestor f) then none else some (.intakeCellAtHead f)
  | [] => none

/-- A feed has been silent in SYNC for 100,000 ticks (R14). -/
def silenceRow (f : Feed) (d : Device) : Option Instr :=
  if (d.intake f).inSync && Config.feedSilenceTicks ≤ (d.intake f).silence then some (.feedSilence f) else none

/-- A management line has been silent inside a frame for 1,000,000 ticks (R170). -/
def lineSilenceRow (p : Port) (d : Device) : Option Instr :=
  if (d.port p).rx.state = .seek || (d.port p).rx.silence < Config.mgmtSilenceTicks then none else some (.mgmtReceiveSilence p)

/-- The wait of a pairing entry has reached 0 (R44). -/
def waitRow (d : Device) : Option Instr := (d.sel.table.find? (fun e => e.wait == 0)).map (fun e => .pairingWaitEnd e.number)

/-- An item's due instant has arrived and no item is in service (R77). -/
def dueRow (x : Site) (d : Device) : Option Instr :=
  if d.em.item.isNone
      && ((d.em.gaps.head?).any (fun g => arrived x.tb g.due 0) || (headDue d).any (fun h => arrived x.tb h.2 0))
  then some .dueInstant else none

/-- The instant D + C has arrived with the item still waiting (R78). -/
def expiryRow (x : Site) (d : Device) : Option Instr :=
  match d.em.item with
  | some ⟨_, due, .waiting⟩ =>
    if x.timing.mode == .sfnStrict && arrived x.tb due x.timing.tolerance then some .creditWaitExpiry else none
  | _ => none

/-- A candidate instant of a gap frame has arrived: one that an alignment without a step jumped over among them, however far (R81)
(DEDUCED, entry 11). -/
def gapRow (x : Site) (d : Device) : Option Instr :=
  match d.em.gapRef with
  | none => none
  | some g => if x.timing.period = 0 || !arrived x.tb (g.candidate x) 0 then none else some .gapCandidateInstant

/-- The next candidate instant does not lie after the due instant of an item that waits to be taken: the buffer is examined before the
item leaves it (R81, section 5.10). -/
def candidateFirst (x : Site) (d : Device) : Bool :=
  d.em.gapRef.any (fun g =>
    !(d.em.gaps.head?).any (fun f => f.due.earlier (g.candidate x)) && !(headDue d).any (fun h => h.2.earlier (g.candidate x)))

/-- The first event, in a fixed order, that the rules say happens at this instant (DESIGN CHOICE, entry 1). -/
def eventNow (s : State) : Option Instr :=
  let x := s.site
  let d := s.dev
  (refusedRow .network d).or <| (refusedRow .maintenance d).or <| (headRow .a d).or <| (headRow .b d).or <|
    (if x.tb.checkDue then some .missingPulseCheck else none).or <| (silenceRow .a d).or <| (silenceRow .b d).or <|
    (lineSilenceRow .network d).or <| (lineSilenceRow .maintenance d).or <| (waitRow d).or <|
    (if candidateFirst x d then gapRow x d else none).or <| (dueRow x d).or <| (expiryRow x d).or (gapRow x d)

/-- One tick that ends no second (R49): T goes up by one, and a missing-pulse check is due when T becomes W + 1 (R53) (DESIGN CHOICE,
entry 1). -/
def tick (s : State) : State :=
  let tb := s.site.tb
  (s.setTb { tb with ticks := tb.ticks + 1, checkDue := tb.ticks + 1 == tb.lockWindow + 1 }).setDev (elapse s.dev)

/-- The step of an empty queue: an event that happens now is put on the queue; the last tick of a second is the row SECOND_BOUNDARY;
otherwise a tick passes (DESIGN CHOICE, entry 1). -/
def idle (s : State) : State :=
  match eventNow s with
  | some c => { s with pending := [c] }
  | none =>
    if s.site.tb.ticks + 1 = Config.ticksPerSecond then { s with pending := [.secondBoundary] } else tick s

end Sys2Proof.Machine
end

