-- ==== Sys2Proof/Machine/Dispatch.lean ====
section
/-! DEFINITION. The dispatch of a command to its meaning: one arm per row of the opcode table. -/

namespace Sys2Proof.Machine

/-- What a command does to everything but the queue. -/
def exec (i : Instr) (s : State) : Host.Outcome State Fault Refusal :=
  match i with
  | .resetLine => Sys2Proof.Machine.execResetLine s
  | .mgmtFrameReceived p bytes => Sys2Proof.Machine.execMgmtFrameReceived p bytes s
  | .mgmtFramingError p => Sys2Proof.Machine.execMgmtFramingError p s
  | .mgmtReceiveSilence p => Sys2Proof.Machine.execMgmtReceiveSilence p s
  | .mgmtFrameSent p => Sys2Proof.Machine.execMgmtFrameSent p s
  | .unknownKind p => Sys2Proof.Machine.execUnknownKind p s
  | .readStatus p => Sys2Proof.Machine.execReadStatus p s
  | .readIdentity p => Sys2Proof.Machine.execReadIdentity p s
  | .setMask p => Sys2Proof.Machine.execSetMask p s
  | .clearConditions p => Sys2Proof.Machine.execClearConditions p s
  | .takeLocal p => Sys2Proof.Machine.execTakeLocal p s
  | .returnRemote p => Sys2Proof.Machine.execReturnRemote p s
  | .claimRemote p => Sys2Proof.Machine.execClaimRemote p s
  | .setLockout p => Sys2Proof.Machine.execSetLockout p s
  | .release p => Sys2Proof.Machine.execRelease p s
  | .siteRestart p => Sys2Proof.Machine.execSiteRestart p s
  | .queryList p => Sys2Proof.Machine.execQueryList p s
  | .setWindow p => Sys2Proof.Machine.execSetWindow p s
  | .setDefaultAction p => Sys2Proof.Machine.execSetDefaultAction p s
  | .setSelector p => Sys2Proof.Machine.execSetSelector p s
  | .setTimebase p => Sys2Proof.Machine.execSetTimebase p s
  | .setTime p => Sys2Proof.Machine.execSetTime p s
  | .setSite p => Sys2Proof.Machine.execSetSite p s
  | .setOutputMode p => Sys2Proof.Machine.execSetOutputMode p s
  | .setArbiter p => Sys2Proof.Machine.execSetArbiter p s
  | .clipOpen p => Sys2Proof.Machine.execClipOpen p s
  | .clipData p => Sys2Proof.Machine.execClipData p s
  | .clipAbort p => Sys2Proof.Machine.execClipAbort p s
  | .clipDelete p => Sys2Proof.Machine.execClipDelete p s
  | .clipInfo p => Sys2Proof.Machine.execClipInfo p s
  | .catalogueRead p => Sys2Proof.Machine.execCatalogueRead p s
  | .setSlot p => Sys2Proof.Machine.execSetSlot p s
  | .listInsert p => Sys2Proof.Machine.execListInsert p s
  | .listRemove p => Sys2Proof.Machine.execListRemove p s
  | .listRead p => Sys2Proof.Machine.execListRead p s
  | .setProgramme p => Sys2Proof.Machine.execSetProgramme p s
  | .cueAnswer p => Sys2Proof.Machine.execCueAnswer p s
  | .programmeReset p => Sys2Proof.Machine.execProgrammeReset p s
  | .asRunFetch p => Sys2Proof.Machine.execAsRunFetch p s
  | .setCounter p => Sys2Proof.Machine.execSetCounter p s
  | .snapshotCounters p => Sys2Proof.Machine.execSnapshotCounters p s
  | .clearCounters p => Sys2Proof.Machine.execClearCounters p s
  | .feedDelineationByte f b => Sys2Proof.Machine.execFeedDelineationByte f b s
  | .feedCellPosition f bytes => Sys2Proof.Machine.execFeedCellPosition f bytes s
  | .feedSilence f => Sys2Proof.Machine.execFeedSilence f s
  | .intakeMarkerAtHead f => Sys2Proof.Machine.execIntakeMarkerAtHead f s
  | .intakeCellAtHead f => Sys2Proof.Machine.execIntakeCellAtHead f s
  | .intakeBurstComplete f => Sys2Proof.Machine.execIntakeBurstComplete f s
  | .pairingWaitEnd n => Sys2Proof.Machine.execPairingWaitEnd n s
  | .referencePulse => Sys2Proof.Machine.execReferencePulse s
  | .missingPulseCheck => Sys2Proof.Machine.execMissingPulseCheck s
  | .secondBoundary => Sys2Proof.Machine.execSecondBoundary s
  | .referenceLoss => Sys2Proof.Machine.execReferenceLoss s
  | .referenceReturn => Sys2Proof.Machine.execReferenceReturn s
  | .dueInstant => Sys2Proof.Machine.execDueInstant s
  | .creditReturn => Sys2Proof.Machine.execCreditReturn s
  | .creditWaitExpiry => Sys2Proof.Machine.execCreditWaitExpiry s
  | .gapCandidateInstant => Sys2Proof.Machine.execGapCandidateInstant s
  | .emitBurstComplete => Sys2Proof.Machine.execEmitBurstComplete s
  | .outputCellSent => Sys2Proof.Machine.execOutputCellSent s
  | .spliceBurstComplete => Sys2Proof.Machine.execSpliceBurstComplete s
  | .loadBurstComplete => Sys2Proof.Machine.execLoadBurstComplete s
  | .bodyLengthOverLimit p bytes => Sys2Proof.Machine.execBodyLengthOverLimit p bytes s

end Sys2Proof.Machine
end

