-- ==== Sys2Proof/Safety.lean ====
section
/-! DEFINITION. The terms in which claims about the machine are stated: a request in service, a request frame on a line, and the laws
that hold of every state the machine can reach. -/

namespace Sys2Proof.Machine

/-! ### Requests -/

/-- Request `r` of kind `k` is in service on port `p`: it was taken without refusal, its length is one its kind allows, and the phase
serves it (R171, R172). -/
abbrev Serving (k : Kind) (p : Port) (r : Request) (s : State) : Prop :=
  (s.dev.port p).service = some ⟨r, none⟩ ∧ kindOf r.kind = some k ∧ k.lengthOk r.body.length = true
    ∧ k.phaseRefusal s.site.phase r.body = none

/-- How requests are received of a kind that either port may give in both phases, with a body of `len` bytes: a body of another length
draws BAD_LENGTH; a request from the port without control draws NOT_IN_CONTROL where the kind needs it, and any other passes; and what
refused a request at its taking is its whole answer (R10, R172). -/
abbrev Kind.Received (k : Kind) (len : Nat) (control : Bool) : Prop :=
  ∀ (ph : Phase) (c : Control) (p : Port) (r : Request), kindOf r.kind = some k →
    (r.body.length ≠ len → takingRefusal ph c p r = some .badLength)
    ∧ (r.body.length = len → takingRefusal ph c p r = if control = true ∧ c.port ≠ p then some .notInControl else none)
    ∧ ∀ (st : Status) (s : State), (s.dev.port p).service = some ⟨r, some st⟩ → exec (k.row p) s = .next (sendReply p r st [] s)

/-- Port `p` has no request to take: one is in service, none waits, or a reply is being sent (R171). -/
abbrev NothingToTake (p : Port) (s : State) : Prop :=
  (s.dev.port p).service.isSome = true ∨ (s.dev.port p).queue = [] ∨ (s.dev.port p).tx.holdsReply = true

/-- The bytes of a request frame, start byte to link check (section 1.6). -/
def requestFrame (kind tag : Byte) (body : Bytes) : Bytes :=
  let covered := beBytes 2 body.length ++ [kind, tag] ++ body
  Config.startByte :: covered ++ beBytes 2 (linkCheck covered).toNat

/-- A programme's settings pass the validation of Release (R174). -/
abbrev ProgrammeSet.valid (g : ProgrammeSet) : Prop :=
  g.enabled = true → g.cueSid.isSome = true ∧ ∃ c : Fin 8, (g.comps[c]).isSome = true

/-! ### Laws of the machine's states -/

/-- While lockout is on, the network port holds control (R177). -/
abbrev LockoutLaw (s : State) : Prop := s.lockout = true → s.control = .network

/-- Site memory is in its canonical form. -/
abbrev MemoryLaw (s : State) : Prop := memWf s.dev.mem = true

/-- Site ticks are below one second (R49). -/
abbrev ClockLaw (s : State) : Prop := s.site.tb.ticks < Config.ticksPerSecond

/-- The selector's collections are within their capacities (R34, R37). -/
abbrev SelectorLaw (s : State) : Prop :=
  s.dev.sel.decided.length ≤ Config.decidedSize ∧ s.dev.sel.table.length ≤ Config.pairingSize

/-- The intake FIFOs are within their capacity (R17). -/
abbrev FifoLaw (s : State) : Prop :=
  s.dev.intakeA.fifo.length ≤ Config.intakeFifoSize ∧ s.dev.intakeB.fifo.length ≤ Config.intakeFifoSize

/-- The input queues of the ports are within their capacity (R171). -/
abbrev InputQueueLaw (s : State) : Prop :=
  s.dev.net.queue.length ≤ Config.inputQueueSize ∧ s.dev.maint.queue.length ≤ Config.inputQueueSize

/-- The as-run queue is within its capacity (R162). -/
abbrev AsRunLaw (s : State) : Prop := s.dev.asrun.queue.length ≤ Config.asRunQueueSize

/-- The load FIFO is within its capacity (R109). -/
abbrev LoadFifoLaw (s : State) : Prop := s.dev.cat.fifo.length ≤ Config.loadFifoSize

/-- Each programme's cue queue and expired list are within their capacities (R133, R137, R139). -/
abbrev CueLaw (s : State) : Prop :=
  ∀ p : ProgNo, (s.dev.splice.progs[p]).queue.length ≤ Config.cueQueueSize ∧ (s.dev.splice.progs[p]).expired.length ≤ Config.expiredSize

/-- The masks hold no bit that names no condition (R179). -/
abbrev MaskLaw (s : State) : Prop := s.dev.net.mask &&& conditionBits = s.dev.net.mask ∧ s.dev.maint.mask &&& conditionBits = s.dev.maint.mask

/-- One port's summary is true exactly while a condition its mask selects is present (R179). -/
abbrev PortState.summaryOk (word : BitVec 16) (p : PortState) : Prop := p.summary = ((word &&& p.mask) != 0)

/-- Both summaries are as the conditions and the masks give them (R179). -/
abbrev SummaryLaw (s : State) : Prop :=
  s.dev.net.summaryOk (conditionWord s.site s.dev) ∧ s.dev.maint.summaryOk (conditionWord s.site s.dev)

/-! ### Safe runs -/

/-- A step is safe when the machine goes on. -/
def StepSafe (s : State) : Prop := ∃ t, step s = .next t

/-- Every step of a run of `n` steps is safe. -/
def RunSafe : Nat → State → Prop
  | 0, _ => True
  | n + 1, s => ∃ t, step s = .next t ∧ RunSafe n t

end Sys2Proof.Machine
end

