-- ==== Sys2Proof/Certificates/Slice0/Obligations.lean ====
section
/-! DEFINITION. The statements for the provers. Each docstring names the rule a statement formalises; where a clause is the model's own
choice it names the entry of notes/assumptions. -/

section Statements

open Sys2Proof Sys2Proof.Machine

/-! ### The machine as a whole -/

/-- A step with a command waiting runs the command at the front on the state with the rest of the queue. -/
def Obligations.StepRunsFrontCommand : Prop :=
  ∀ (c : Instr) (rest : List Instr) (s : State), step { s with pending := c :: rest } = exec c { s with pending := rest }

/-- Every command completes in every state, and no command touches the queue of waiting commands. That nothing stops is the model's
reading (entry 17), that an event given out of place still answers a next state is its choice (entry 2), and so is that no command,
RESET_LINE among them, touches the queue (entry 1). -/
def Obligations.EveryCommandCompletes : Prop :=
  ∀ (c : Instr) (s : State), ∃ t, exec c s = .next t ∧ t.pending = s.pending

/-- With nothing waiting, nothing to happen at this instant and no second ending, a step is one tick (R49): T goes up by one, pairing
waits count down (R36) and silences count up (R14, R170). That a step of an empty queue is a tick, and that no event is due at it, are the
model's reading of time (entry 1). -/
def Obligations.IdleStepIsOneTick : Prop :=
  ∀ s : State, s.pending = [] → eventNow s = none → s.site.tb.ticks + 1 ≠ 10000000 →
    ∃ t, step s = .next t ∧ t.pending = [] ∧ t.control = s.control ∧ t.lockout = s.lockout
      ∧ t.site = { s.site with tb :=
          { s.site.tb with ticks := s.site.tb.ticks + 1, checkDue := t.site.tb.checkDue } }
      ∧ (t.site.tb.checkDue = true ↔ s.site.tb.ticks + 1 = s.site.tb.lockWindow + 1)
      ∧ t.dev.sel.decided = s.dev.sel.decided
      ∧ t.dev.sel.table = s.dev.sel.table.map (fun e => { e with wait := e.wait - 1 })
      ∧ (∀ f, t.dev.intake f =
          { s.dev.intake f with
            silence := if (s.dev.intake f).delin = .sync then (s.dev.intake f).silence + 1 else (s.dev.intake f).silence })
      ∧ (∀ p, t.dev.port p =
          { s.dev.port p with rx :=
            { (s.dev.port p).rx with
              silence := if (s.dev.port p).rx.state = .seek then (s.dev.port p).rx.silence
                else (s.dev.port p).rx.silence + 1 } })
      ∧ t.dev = { s.dev with
          intakeA := t.dev.intakeA, intakeB := t.dev.intakeB, sel := t.dev.sel, net := t.dev.net, maint := t.dev.maint }

/-- While lockout is on the network port holds control, and every step keeps this (R177). -/
def Obligations.LockoutLawKept : Prop := ∀ s t : State, LockoutLaw s → step s = .next t → LockoutLaw t

/-- Every step keeps site memory in its canonical form, addresses rising and no byte equal to what an unlisted address reads as; the form,
and that an unlisted address reads as 0, are the model's (entry 13). -/
def Obligations.MemoryLawKept : Prop := ∀ s t : State, MemoryLaw s → step s = .next t → MemoryLaw t

/-- Site ticks stay below one second (R49, R52), the decided list never holds more than 16 numbers nor the pairing table more than 8
entries (R34, R37), the intake FIFOs, the input queues, the as-run queue and the load FIFO stay within their capacities (R17, R171, R162,
R109), and so do every programme's cue queue and expired list, of four each (R133, R137, R139). -/
def Obligations.CapacityLawsKept : Prop :=
  ∀ s t : State, step s = .next t →
    (ClockLaw s → ClockLaw t) ∧ (SelectorLaw s → SelectorLaw t) ∧ (FifoLaw s → FifoLaw t)
      ∧ (InputQueueLaw s → InputQueueLaw t) ∧ (AsRunLaw s → AsRunLaw t) ∧ (LoadFifoLaw s → LoadFifoLaw t)
      ∧ (CueLaw s → CueLaw t)

/-- Every step keeps both ports' summaries as the conditions and their masks give them, and no mask ever comes to hold a bit that names no
condition (R179). -/
def Obligations.SummaryLawKept : Prop :=
  ∀ s t : State, step s = .next t → (SummaryLaw s → SummaryLaw t) ∧ (MaskLaw s → MaskLaw t)

/-- The state right after the reset line meets every law; the canonical form of site memory among them is the model's (entry 13). -/
def Obligations.LawsHoldAtReset : Prop :=
  LockoutLaw State.reset ∧ MemoryLaw State.reset ∧ ClockLaw State.reset ∧ SelectorLaw State.reset ∧ FifoLaw State.reset
    ∧ InputQueueLaw State.reset ∧ AsRunLaw State.reset ∧ LoadFifoLaw State.reset ∧ CueLaw State.reset ∧ SummaryLaw State.reset
    ∧ MaskLaw State.reset

/-- RESET_LINE gives every part of the state its reset value; the waiting commands stay (the model's choice, entry 1), the fields of the
model's own take their reset values (entry 6) and site memory is empty, so that every byte reads 0 (entry 13). The values the rules state:
T and S 0 and UNSET (R49, R54), HELD with control NETWORK and lockout off (R173, R176), every slot FREE and empty (R91), the free list 0
to 1,023 in order (R95), the initial priorities 0, 1, 1, 3, 6 (R101), two credits (R82), both masks clear (R179), the record number 0
(R155). -/
def Obligations.ResetLineSetsEverything : Prop :=
  ∀ s : State, ∃ t, exec .resetLine s = .next t ∧ t = { State.reset with pending := s.pending }
    ∧ t.site.phase = .held ∧ t.control = .network ∧ t.lockout = false
    ∧ t.site.tb.secs = 0 ∧ t.site.tb.ticks = 0 ∧ t.site.tb.disc = .unset ∧ t.site.tb.present = false
    ∧ (∀ i : SlotNo, t.dev.slots[i] = Record.empty)
    ∧ t.dev.cat.freeList.map (·.val) = List.range 1024 ∧ (∀ i : PlaceNo, t.dev.cat.places[i] = none)
    ∧ t.dev.arb.initial.toList = [0, 1, 1, 3, 6] ∧ t.dev.arb.effective.toList = [0, 1, 1, 3, 6] ∧ t.dev.arb.current = none
    ∧ t.dev.em.credits = 2 ∧ t.dev.em.item = none ∧ t.dev.em.output = [] ∧ t.dev.em.buffer = []
    ∧ t.dev.net.mask = 0 ∧ t.dev.maint.mask = 0 ∧ t.dev.latched = 0
    ∧ t.dev.asrun.next = 0 ∧ t.dev.asrun.lost = 0 ∧ t.dev.asrun.queue = []

/-! ### Formats -/

/-- The header the device forms from fields reads back as those fields, the payload behind it is untouched, and it is valid whenever its
SID, qualifier and index go together (R1, R2, R3). -/
def Obligations.FormedHeaderReadsBack : Prop :=
  ∀ (h : Header) (pl : Bytes),
    parseHeader (formHeader h ++ pl) = h ∧ payloadOf (formHeader h ++ pl) = pl
      ∧ ((h.sid = 4095#12 ↔ h.qual = .marker) → (h.sid = 4095#12 ∨ (1 ≤ h.index.toNat ∧ h.index.toNat ≤ 256)) →
          headerValid (formHeader h ++ pl) = true)

/-- A run of bytes written to site memory reads back byte for byte, and every other address reads as before; the memory stays in its
canonical form, which is the model's (entry 13). -/
def Obligations.WrittenRunReadsBack : Prop :=
  ∀ (m : SiteMemory) (k : Nat) (bs : Bytes) (a : Nat), memWf m = true →
    memWf (memWriteRun m k bs) = true
      ∧ memRead (memWriteRun m k bs) a = if k ≤ a ∧ a < k + bs.length then bs.getD (a - k) 0 else memRead m a

/-! ### The management ports -/

/-- A whole request frame received on an idle line (R9, R170, R171; that the bytes of a frame come as one command is entry 3): it joins
the tail of the input queue when a request is in service and the queue holds fewer than 4; it is dropped and counted as QUEUE_FULL when
the queue holds 4; and with nothing queued, in service or being answered it is taken at once, with the checks of R172. That a request
which fails a check stands in service with its refusal recorded, until its row answers it, is the model's choice (entry 4). -/
def Obligations.RequestFrameReceived : Prop :=
  ∀ (p : Port) (kind tag : Byte) (body : Bytes) (s : State),
    (s.dev.port p).rx.state = .seek → body.length ≤ 1024 → kind.getLsbD 7 = false →
    ((s.dev.port p).service.isSome = true → (s.dev.port p).queue.length < 4 →
      exec (.mgmtFrameReceived p (requestFrame kind tag body)) s = .next (s.setDev (s.dev.setPort p
        { s.dev.port p with rx := ⟨.seek, [], 0⟩, queue := (s.dev.port p).queue ++ [⟨kind, tag, body⟩] })))
    ∧ ((s.dev.port p).service.isSome = true → 4 ≤ (s.dev.port p).queue.length →
      exec (.mgmtFrameReceived p (requestFrame kind tag body)) s = .next (s.setDev
        (count s.site .link (match p with | .network => 2 | .maintenance => 3)
          (s.dev.setPort p { s.dev.port p with rx := ⟨.seek, [], 0⟩ }))))
    ∧ ((s.dev.port p).service = none → (s.dev.port p).queue = [] → (s.dev.port p).tx.holdsReply = false →
      exec (.mgmtFrameReceived p (requestFrame kind tag body)) s = .next (s.setDev (s.dev.setPort p
        { s.dev.port p with
          rx := ⟨.seek, [], 0⟩
          service := some ⟨⟨kind, tag, body⟩, takingRefusal s.site.phase s.control p ⟨kind, tag, body⟩⟩ })))

/-- A frame that breaks off or is no request is discarded and counted as BAD_FRAME for its port, and the receiver returns to SEEK: a body
length above 1,024 at its second byte, a framing error inside a frame, a silence of 1,000,000 ticks inside a frame, and a whole frame with
a wrong link check or of a kind 0x80 to 0xFF. A framing error in SEEK is passed over (R9, R170). That the bytes of a frame come as one
command is entry 3. -/
def Obligations.BrokenFrameDropped : Prop :=
  ∀ (p : Port) (hi lo : Byte) (s : State),
    let dropped := s.setDev (count s.site .link (match p with | .network => 0 | .maintenance => 1)
      (s.dev.setPort p { s.dev.port p with rx := ⟨.seek, [], 0⟩ }))
    ((s.dev.port p).rx.state = .seek → NothingToTake p s → 1024 < hi.toNat * 256 + lo.toNat →
      exec (.bodyLengthOverLimit p [0xA5, hi, lo]) s = .next dropped)
    ∧ ((s.dev.port p).rx.state ≠ .seek → exec (.mgmtFramingError p) s = .next dropped)
    ∧ ((s.dev.port p).rx.state = .seek → exec (.mgmtFramingError p) s = .next s)
    ∧ ((s.dev.port p).rx.state ≠ .seek → 1000000 ≤ (s.dev.port p).rx.silence →
      exec (.mgmtReceiveSilence p) s = .next dropped)
    ∧ (∀ (kind tag : Byte) (body : Bytes) (check : BitVec 16), (s.dev.port p).rx.state = .seek → NothingToTake p s →
      body.length ≤ 1024 → kind.getLsbD 7 = true ∨ check ≠ linkCheck (beBytes 2 body.length ++ [kind, tag] ++ body) →
      exec (.mgmtFrameReceived p (0xA5 :: beBytes 2 body.length ++ [kind, tag] ++ body ++ beBytes 2 check.toNat)) s = .next dropped)

/-- A frame sent in full starts the next waiting one, and a queued request is taken when none is in service and no reply is left to send
(R171, R180). That the taking belongs to this row, and that the first check the request fails is recorded with it, is the model's choice
(entry 4). -/
def Obligations.FrameSentStartsNext : Prop :=
  ∀ (p : Port) (f g : TxFrame) (gs : List TxFrame) (r : Request) (rs : List Request) (s : State),
    (s.dev.port p).tx.sending = some f →
    ((s.dev.port p).tx.waiting = g :: gs →
      (s.dev.port p).service.isSome = true ∨ (s.dev.port p).queue = [] ∨ (∃ h ∈ g :: gs, h.attention = false) →
      exec (.mgmtFrameSent p) s = .next (s.setDev (s.dev.setPort p { s.dev.port p with tx := ⟨some g, gs⟩ })))
    ∧ ((s.dev.port p).tx.waiting = g :: gs → (s.dev.port p).service = none → (s.dev.port p).queue = r :: rs →
      (∀ h ∈ g :: gs, h.attention = true) →
      exec (.mgmtFrameSent p) s = .next (s.setDev (s.dev.setPort p
        { s.dev.port p with
          tx := ⟨some g, gs⟩, queue := rs, service := some ⟨r, takingRefusal s.site.phase s.control p r⟩ })))
    ∧ ((s.dev.port p).tx.waiting = [] → (s.dev.port p).queue = [] →
      exec (.mgmtFrameSent p) s = .next (s.setDev (s.dev.setPort p { s.dev.port p with tx := ⟨none, []⟩ })))
    ∧ ((s.dev.port p).tx.waiting = [] → (s.dev.port p).service = none → (s.dev.port p).queue = r :: rs →
      exec (.mgmtFrameSent p) s = .next (s.setDev (s.dev.setPort p
        { s.dev.port p with
          tx := ⟨none, []⟩, queue := rs, service := some ⟨r, takingRefusal s.site.phase s.control p r⟩ })))

/-- The checks made when a request is taken, in their order: kind, length, port, phase, control. A request refused when it was taken draws
its status alone and changes nothing else, and a request of a kind the index does not assign draws UNKNOWN_KIND (R10, R172). -/
def Obligations.RequestsAreChecked : Prop :=
  (∀ (ph : Phase) (c : Control) (p : Port) (r : Request),
      (kindOf r.kind = none → takingRefusal ph c p r = some .unknownKind)
      ∧ ∀ k, kindOf r.kind = some k →
        (k.lengthOk r.body.length = false → takingRefusal ph c p r = some .badLength)
        ∧ (k.lengthOk r.body.length = true →
          (k.portOk p = false → takingRefusal ph c p r = some .wrongState)
          ∧ (k.portOk p = true →
            (∀ st, k.phaseRefusal ph r.body = some st → takingRefusal ph c p r = some st)
            ∧ (k.phaseRefusal ph r.body = none →
              (k.needsControl = true → c.port ≠ p → takingRefusal ph c p r = some .notInControl)
              ∧ ((k.needsControl = false ∨ c.port = p) → takingRefusal ph c p r = none)))))
  ∧ (∀ (p : Port) (r : Request) (s : State),
      (∀ (k : Kind) (st : Status), (s.dev.port p).service = some ⟨r, some st⟩ → kindOf r.kind = some k →
        exec (k.row p) s = .next (sendReply p r st [] s))
      ∧ (∀ o, (s.dev.port p).service = some ⟨r, o⟩ → kindOf r.kind = none →
        exec (.unknownKind p) s = .next (sendReply p r .unknownKind [] s)))

/-- ReadIdentity needs no control and is accepted in both phases with an empty body, any other length is answered BAD_LENGTH, and it draws
OK with the 20 bytes of the fixed figures (R182). -/
def Obligations.ReadIdentityReply : Prop :=
  Kind.readIdentity.Received 0 false ∧ ∀ (p : Port) (r : Request) (s : State), Serving .readIdentity p r s →
      exec (.readIdentity p) s = .next (sendReply p r .ok
        [0x26, 0x40, 1, 40, 1, 0, 4, 0, 0x10, 0, 64, 4, 32, 64, 1, 0, 32, 8, 8, 16] s)

/-- ReadStatus is received on either port in both phases with an empty body, draws OK with 56 bytes that hold, at the places and in the
sizes R181 gives them, every figure of its table as it stands, and changes nothing (R181). -/
def Obligations.ReadStatusReply : Prop :=
  Kind.readStatus.Received 0 false ∧ ∀ (p : Port) (r : Request) (s : State), Serving .readStatus p r s →
    let tb := s.site.tb
    let d := s.dev
    let bit := fun c : Bool => if c then 1 else 0
    ∃ b, exec (.readStatus p) s = .next (sendReply p r .ok b s) ∧ b.length = 56
      ∧ fieldAt b 0 1 = (match s.site.phase with | .held => 0 | .running => 1)
      ∧ fieldAt b 1 1 = (match s.control with | .network => 0 | .local_ => 1)
      ∧ fieldAt b 2 1 = bit s.lockout
      ∧ fieldAt b 3 2 = (conditionWord s.site d).toNat
      ∧ fieldAt b 5 2 = (d.port p).mask.toNat
      ∧ fieldAt b 7 1 = bit (d.port p).summary
      ∧ fieldAt b 8 1 = (match tb.disc with | .unset => 0 | .acquiring => 1 | .locked => 2 | .holdover => 3 | .expired => 4)
      ∧ fieldAt b 9 1 = bit tb.present
      ∧ fieldAt b 10 4 = tb.secs.toNat
      ∧ fieldAt b 14 3 = tb.ticks % 16777216
      ∧ fieldAt b 17 1 = tb.good % 256
      ∧ fieldAt b 18 1 = tb.outliers % 256
      ∧ fieldAt b 19 3 = tb.holdover % 16777216
      ∧ fieldAt b 22 1 = bit tb.label.isSome
      ∧ fieldAt b 23 4 = tb.label.elim 0 BitVec.toNat
      ∧ fieldAt b 27 1 = (match outputMode s.site d with | .onAir => 0 | .muted => 1 | .standby => 2)
      ∧ fieldAt b 28 1 = (match s.site.hostChoice with | .onAir => 1 | .mute => 2 | .standby => 3)
      ∧ fieldAt b 29 1 = bit (muteHost s.site) + 2 * bit (muteTime s.site) + 4 * bit (muteNoFeed d)
      ∧ fieldAt b 30 1 = (match d.intakeA.delin with | .hunt => 0 | .presync => 1 | .sync => 2)
      ∧ fieldAt b 31 1 = (match d.intakeB.delin with | .hunt => 0 | .presync => 1 | .sync => 2)
      ∧ fieldAt b 32 1 = d.em.credits % 256
      ∧ fieldAt b 33 1 = slotCount d .free % 256
      ∧ fieldAt b 34 1 = slotCount d .assembling % 256
      ∧ fieldAt b 35 1 = slotCount d .pending % 256
      ∧ fieldAt b 36 1 = slotCount d .queued % 256
      ∧ fieldAt b 37 1 = slotCount d .splicing % 256
      ∧ fieldAt b 38 1 = slotCount d .emitting % 256
      ∧ fieldAt b 39 2 = d.cat.freeList.length % 65536
      ∧ (∀ i : Fin 5, fieldAt b (41 + i.val) 1 = d.arb.initial[i] % 256)
      ∧ fieldAt b 46 1 = d.asrun.queue.length % 256
      ∧ fieldAt b 47 1 = vcount d.asrun.drafts Option.isSome % 256
      ∧ fieldAt b 48 4 = d.asrun.next.toNat
      ∧ fieldAt b 52 4 = d.asrun.lost % 4294967296

/-- The read requests of the lists and the catalogue draw OK and change nothing: ListRead gives the list, its length, its head and the
entries from the skip count on, at most the maximum count (R127); QueryList gives every QUERY cue (R183); ClipInfo gives a known clip's
summary and blocks, and NOT_FOUND for an unknown id (R115); CatalogueRead gives the records from the start place on, and as the next place
the one after the last scanned, or 255 when place 63 was scanned (R116). -/
def Obligations.ListsAndCatalogueRead : Prop :=
  ∀ (p : Port) (r : Request) (s : State),
    (∀ (l : ListNo) (skip m : Byte), Serving .listRead p r s → r.body = [BitVec.ofNat 8 l.val, skip, m] →
      1 ≤ m.toNat → m.toNat ≤ 128 →
      exec (.listRead p) s = .next (sendReply p r .ok
        (BitVec.ofNat 8 l.val :: beBytes 2 s.dev.lists.rings[l].length
          ++ [(s.dev.lists.rings[l].head?).elim 255 (fun e => BitVec.ofNat 8 e.val)]
          ++ [BitVec.ofNat 8 ((s.dev.lists.rings[l].drop skip.toNat).take m.toNat).length]
          ++ ((s.dev.lists.rings[l].drop skip.toNat).take m.toNat).flatMap (listItem s.dev)) s))
    ∧ (Serving .queryList p r s →
      exec (.queryList p) s = .next (sendReply p r .ok
        (BitVec.ofNat 8 (queryItems s.dev).length :: (queryItems s.dev).flatten) s)
      ∧ ∀ b ∈ queryItems s.dev, b.length = 15)
    ∧ (∀ (i : PlaceNo) (c : ClipRecord), Serving .clipInfo p r s → fieldAt r.body 0 2 ≠ 0 →
      findClip (BitVec.ofNat 16 (fieldAt r.body 0 2)) s.dev = some i → s.dev.cat.places[i] = some c →
      exec (.clipInfo p) s = .next (sendReply p r .ok (clipSummary i c ++ c.blocks.flatMap (fun b => beBytes 2 b.val)) s)
      ∧ (clipSummary i c).length = 24)
    ∧ (Serving .clipInfo p r s → fieldAt r.body 0 2 ≠ 0 → findClip (BitVec.ofNat 16 (fieldAt r.body 0 2)) s.dev = none →
      exec (.clipInfo p) s = .next (sendReply p r .notFound [] s))
    ∧ (∀ (start m : Byte), Serving .catalogueRead p r s → r.body = [start, m] → start.toNat ≤ 63 → 1 ≤ m.toNat → m.toNat ≤ 32 →
      ∃ found next, exec (.catalogueRead p) s = .next (sendReply p r .ok
          (BitVec.ofNat 8 found.length :: BitVec.ofNat 8 next :: found.flatMap (fun x => clipSummary x.1 x.2)) s)
        ∧ found.length ≤ m.toNat
        ∧ found <+: (((List.finRange 64).drop start.toNat).filterMap (fun i => (s.dev.cat.places[i]).map (fun c => (i, c))))
        ∧ (found.length = m.toNat → ∃ x, found.getLast? = some x ∧ next = if x.1.val = 63 then 255 else x.1.val + 1)
        ∧ (found.length < m.toNat →
          found = (((List.finRange 64).drop start.toNat).filterMap (fun i => (s.dev.cat.places[i]).map (fun c => (i, c))))
            ∧ next = 255))

/-! ### Conditions, control and phase -/

/-- SetMask stores the body's word with the bits that name no condition clear, on the port it came in on, and recomputes that port's
summary, which makes an Attention where it rises (R179, R180). That the Attention is given to the transmitter before the reply of the same
instant is the model's choice (entry 7). -/
def Obligations.MaskIsStored : Prop :=
  ∀ (p : Port) (r : Request) (s : State), Serving .setMask p r s →
    ∃ t, exec (.setMask p) s = .next t
      ∧ (let mask := BitVec.ofNat 16 (fieldAt r.body 0 2) &&& 0x1F7F#16
         let on := (conditionWord s.site s.dev &&& mask) != 0
         let tx := if on && !(s.dev.port p).summary then
             (s.dev.port p).tx.putAttention ⟨true, 0x70, 0, beBytes 2 (conditionWord s.site s.dev).toNat ++ beBytes 2 mask.toNat⟩
           else (s.dev.port p).tx
         t = sendReply p r .ok (beBytes 2 mask.toNat)
           (s.setDev (s.dev.setPort p { s.dev.port p with mask := mask, summary := on, tx := tx })))

/-- ClearConditions is received on either port in both phases with a body of two bytes and no control, clears the latched conditions its
word names and no other, recomputes both summaries, and draws OK with the condition word as it then stands (R178). -/
def Obligations.ConditionsAreCleared : Prop :=
  Kind.clearConditions.Received 2 false ∧ ∀ (p : Port) (r : Request) (s : State), Serving .clearConditions p r s →
    ∃ d, exec (.clearConditions p) s = .next (sendReply p r .ok (beBytes 2 (conditionWord s.site d).toNat) (s.setDev d))
      ∧ d.latched = s.dev.latched &&& ~~~(BitVec.ofNat 16 (fieldAt r.body 0 2))
      ∧ levelWord s.site d = levelWord s.site s.dev
      ∧ d = { s.dev with latched := d.latched, net := d.net, maint := d.maint }
      ∧ (∀ q, (d.port q).summary = ((conditionWord s.site d &&& (s.dev.port q).mask) != 0)
        ∧ d.port q = { s.dev.port q with summary := (d.port q).summary, tx := (d.port q).tx })

/-- TakeLocal gives the maintenance port control unless lockout is on, ReturnRemote and ClaimRemote give it to the network port;
CONTROL_CHANGE is latched where TakeLocal or ClaimRemote moves it and never by ReturnRemote (R176). That an Attention it raises goes
before the reply of the same instant is the model's choice (entry 7). -/
def Obligations.ControlMoves : Prop :=
  ∀ (p : Port) (r : Request) (s : State),
    (Serving .takeLocal p r s → s.lockout = true → exec (.takeLocal p) s = .next (sendReply p r .lockedOut [] s))
    ∧ (Serving .takeLocal p r s → s.lockout = false → s.control = .network →
      exec (.takeLocal p) s = .next (sendReply p r .ok []
        { s with control := .local_, dev := refresh s.site { s.dev with latched := s.dev.latched ||| 0x1000#16 } }))
    ∧ (Serving .takeLocal p r s → s.lockout = false → s.control = .local_ →
      exec (.takeLocal p) s = .next (sendReply p r .ok [] s))
    ∧ (Serving .returnRemote p r s → exec (.returnRemote p) s = .next (sendReply p r .ok [] { s with control := .network }))
    ∧ (Serving .claimRemote p r s → s.control = .local_ →
      exec (.claimRemote p) s = .next (sendReply p r .ok []
        { s with control := .network, dev := refresh s.site { s.dev with latched := s.dev.latched ||| 0x1000#16 } }))
    ∧ (Serving .claimRemote p r s → s.control = .network → exec (.claimRemote p) s = .next (sendReply p r .ok [] s))

/-- SetLockout belongs to the network port, needs no control and has a body of one byte: on takes control from the maintenance port,
latching CONTROL_CHANGE, and leaves a network control alone; off moves nothing; any other value is BAD_FIELD. While lockout is on
TakeLocal is LOCKED_OUT and, where the law of control holds, no request that needs control passes its checks on the maintenance port; and
every step keeps that law (R177). That the Attention of CONTROL_CHANGE goes before the reply of the same instant is the model's choice
(entry 7). -/
def Obligations.LockoutIsSet : Prop :=
  (∀ (ph : Phase) (c : Control) (r : Request), kindOf r.kind = some .setLockout →
      (r.body.length ≠ 1 → ∀ p, takingRefusal ph c p r = some .badLength)
      ∧ (r.body.length = 1 →
        takingRefusal ph c .network r = none ∧ takingRefusal ph c .maintenance r = some .wrongState))
    ∧ (∀ (p : Port) (r : Request) (s : State), Serving .setLockout p r s →
      (r.body = [0] → exec (.setLockout p) s = .next (sendReply p r .ok [] { s with lockout := false }))
      ∧ (r.body = [1] → s.control = .network →
        exec (.setLockout p) s = .next (sendReply p r .ok [] { s with lockout := true }))
      ∧ (r.body = [1] → s.control = .local_ →
        exec (.setLockout p) s = .next (sendReply p r .ok []
          { s with
            control := .network, lockout := true
            dev := refresh s.site { s.dev with latched := s.dev.latched ||| 0x1000#16 } }))
      ∧ (∀ b : Byte, 2 ≤ b.toNat → r.body = [b] → exec (.setLockout p) s = .next (sendReply p r .badField [] s)))
    ∧ (∀ (p : Port) (r : Request) (s : State), Serving .takeLocal p r s → s.lockout = true →
      exec (.takeLocal p) s = .next (sendReply p r .lockedOut [] s))
    ∧ (∀ (k : Kind) (ph : Phase) (r : Request) (s : State), LockoutLaw s → s.lockout = true → kindOf r.kind = some k →
      k.needsControl = true → (takingRefusal ph s.control .maintenance r).isSome = true)
    ∧ ∀ s t : State, LockoutLaw s → step s = .next t → LockoutLaw t

/-- Release moves HELD to RUNNING when the frame period is set and every enabled programme has a cue SID and a component SID; otherwise it
draws CONFIG_INVALID with the first faulty setting and changes nothing (R174). -/
def Obligations.ReleaseStartsRunning : Prop :=
  ∀ (p : Port) (r : Request) (s : State), Serving .release p r s →
    (s.site.timing.period = 0 → exec (.release p) s = .next (sendReply p r .configInvalid [1, 255] s))
    ∧ (s.site.timing.period ≠ 0 → (∀ q : ProgNo, ProgrammeSet.valid s.site.progs[q]) →
      exec (.release p) s = .next (sendReply p r .ok [] (s.setSite { s.site with phase := .running })))
    ∧ (∀ q : ProgNo, s.site.timing.period ≠ 0 → (∀ q' < q, ProgrammeSet.valid s.site.progs[q']) →
      (s.site.progs[q]).enabled = true → (s.site.progs[q]).cueSid = none →
      exec (.release p) s = .next (sendReply p r .configInvalid [2, BitVec.ofNat 8 q.val] s))
    ∧ (∀ q : ProgNo, s.site.timing.period ≠ 0 → (∀ q' < q, ProgrammeSet.valid s.site.progs[q']) →
      (s.site.progs[q]).enabled = true → (s.site.progs[q]).cueSid.isSome = true → (∀ c : Fin 8, (s.site.progs[q]).comps[c] = none) →
      exec (.release p) s = .next (sendReply p r .configInvalid [3, BitVec.ofNat 8 q.val] s))

/-- SiteRestart returns to HELD and clears the stream state, block by block: the intakes, the selector, the emission unit and every frame
slot, the loads with their contexts and LOADING records, the holds of the lists, the breaks and the drafts. The records it makes carry
SITE_RESTART, with outcome ABORTED, BLANKED or PLAYED_SHORT. It keeps the configuration, the timebase, control, lockout, the counters, the
arbiter's initial priorities, the masks and site memory (R32, R48, R83, R91, R117, R132, R154, R161, R175). That the cell on the output
port is finished is entry 8, and that a draft whose break had closed before takes the cause SITE_RESTART too is entry 23. -/
def Obligations.SiteRestartClears : Prop :=
  ∀ (p : Port) (r : Request) (s : State), Serving .siteRestart p r s →
    ∃ d, exec (.siteRestart p) s = .next (sendReply p r .ok [] ((s.setSite { s.site with phase := .held }).setDev d))
      ∧ d.intakeA = Intake.reset ∧ d.intakeB = Intake.reset
      ∧ d.sel.decided = [] ∧ d.sel.table = []
      ∧ d.em = { Emission.reset with credits := s.site.timing.credits, output := s.dev.em.output.take 1 }
      ∧ (∀ q : ProgNo, d.splice.progs[q] = Programme.reset) ∧ d.splice.queue = []
      ∧ (∀ i : SlotNo, d.slots[i] = Record.empty)
      ∧ d.cat.fifo = [] ∧ (∀ c : CtxNo, d.cat.ctxs[c] = none)
      ∧ (∀ (i : PlaceNo) (c : ClipRecord), d.cat.places[i] = some c → c.state ≠ .loading)
      ∧ (∀ (e : EntryNo) (y : RingEntry), d.lists.pool[e] = some y → y.state = .idle ∧ y.holders = [])
      ∧ (∀ n : DraftNo, d.asrun.drafts[n] = none)
      ∧ (∃ made, d.asrun.queue = s.dev.asrun.queue ++ made ∧ ∀ y ∈ made, y.cause = .siteRestart
        ∧ (y.outcome = .aborted ∨ y.outcome = .blanked ∨ y.outcome = .playedShort))
      ∧ d.counters = s.dev.counters ∧ d.mem = s.dev.mem ∧ d.arb.initial = s.dev.arb.initial
      ∧ d.net.mask = s.dev.net.mask ∧ d.maint.mask = s.dev.maint.mask

/-! ### Configuration requests -/

/-- SetWindow writes the window its body reads as, and nothing else; a body with a field outside its values draws BAD_FIELD; and no window
with a translation is of another kind than CARRY or could translate to SID 4095. SetDefaultAction writes the default action (R25). -/
def Obligations.WindowIsWritten : Prop :=
  (∀ (p : Port) (r : Request) (s : State),
    (∀ i w, Serving .setWindow p r s → readWindow r.body = some (i, w) →
      exec (.setWindow p) s = .next (sendReply p r .ok [] (s.setSite { s.site with windows := s.site.windows.set i w })))
    ∧ (Serving .setWindow p r s → readWindow r.body = none →
      exec (.setWindow p) s = .next (sendReply p r .badField [] s))
    ∧ (Serving .setDefaultAction p r s → r.body = [1] →
      exec (.setDefaultAction p) s = .next (sendReply p r .ok [] (s.setSite { s.site with defaultAction := .carry })))
    ∧ (Serving .setDefaultAction p r s → r.body = [2] →
      exec (.setDefaultAction p) s = .next (sendReply p r .ok [] (s.setSite { s.site with defaultAction := .drop }))))
  ∧ (∀ b i w t, readWindow b = some (i, w) → w.translate = some t → w.kind = .carry ∧ t &&& w.mask ≠ w.mask)
  ∧ (∀ (i : Fin 16) (en : Bool) (base mask t : Sid), t &&& mask ≠ mask →
    readWindow (BitVec.ofNat 8 i.val :: (if en then 1 else 0) :: 3 :: 1 :: beBytes 2 base.toNat ++ beBytes 2 mask.toNat
      ++ 1 :: beBytes 2 t.toNat) = some (i, ⟨en, .both, .carry, base, mask, some t⟩))

/-- SetSelector needs control, is received in both phases with a body of five bytes, sets the mode and the pairing wait, lowers a wait
above 5,000,000 and then answers OK_CLAMPED with the values used; a mode other than 1 and 2 is BAD_FIELD and neither setting changes
(R33). The change from PRIMARY_A to FIRST_VALID decides the entries that hold a copy; nothing else changes the device (R46). -/
def Obligations.SelectorIsSet : Prop :=
  Kind.setSelector.Received 5 true
  ∧ (∀ (p : Port) (r : Request) (s : State) (first : Bool) (w : BitVec 32), Serving .setSelector p r s →
    r.body = (if first then 1 else 2) :: beBytes 4 w.toNat →
    let x := { s.site with selMode := if first then .firstValid else .primaryA, pairWait := min w.toNat 5000000 }
    exec (.setSelector p) s = .next (sendReply p r
      (if w.toNat ≤ 5000000 then .ok else .okClamped)
      (if w.toNat ≤ 5000000 then [] else (if first then 1 else 2) :: beBytes 4 5000000)
      ((s.setSite x).setDev (if first && s.site.selMode == .primaryA then decideHeld x s.dev else s.dev))))
  ∧ ∀ (p : Port) (r : Request) (s : State) (mode : Byte) (w : BitVec 32), Serving .setSelector p r s →
    mode ≠ 1 → mode ≠ 2 → r.body = mode :: beBytes 4 w.toNat →
    exec (.setSelector p) s = .next (sendReply p r .badField [] s)

/-- SetTime holds its label as pending, in place of any before it (R60). SetTimebase sets the lock window, the pulses to lock and the
holdover limit, each kept within its range, and answers OK_CLAMPED with the values used where one was changed (R61). -/
def Obligations.TimeSettings : Prop :=
  ∀ (p : Port) (r : Request) (s : State),
    (∀ l : BitVec 32, Serving .setTime p r s → r.body = beBytes 4 l.toNat →
      exec (.setTime p) s = .next (sendReply p r .ok [] (s.setTb { s.site.tb with label := some l })))
    ∧ (∀ (w : BitVec 16) (n : BitVec 8) (h : BitVec 32), Serving .setTimebase p r s →
      r.body = beBytes 2 w.toNat ++ beBytes 1 n.toNat ++ beBytes 4 h.toNat →
      ∃ w' n' h', 1 ≤ w' ∧ w' ≤ 1000 ∧ 1 ≤ n' ∧ n' ≤ 16 ∧ 1 ≤ h' ∧ h' ≤ 86400
        ∧ (1 ≤ w.toNat → w.toNat ≤ 1000 → w' = w.toNat) ∧ (w.toNat = 0 → w' = 1) ∧ (1000 < w.toNat → w' = 1000)
        ∧ (1 ≤ n.toNat → n.toNat ≤ 16 → n' = n.toNat) ∧ (n.toNat = 0 → n' = 1) ∧ (16 < n.toNat → n' = 16)
        ∧ (1 ≤ h.toNat → h.toNat ≤ 86400 → h' = h.toNat) ∧ (h.toNat = 0 → h' = 1) ∧ (86400 < h.toNat → h' = 86400)
        ∧ exec (.setTimebase p) s = .next (sendReply p r
            (if w' = w.toNat ∧ n' = n.toNat ∧ h' = h.toNat then .ok else .okClamped)
            (if w' = w.toNat ∧ n' = n.toNat ∧ h' = h.toNat then [] else beBytes 2 w' ++ beBytes 1 n' ++ beBytes 4 h')
            (s.setTb { s.site.tb with lockWindow := w', pulsesToLock := n', holdoverLimit := h' })))

/-- SetSite in HELD writes every timing setting within its range and sets the credit count; in RUNNING it writes the offset when nothing
else would change, and is refused WRONG_STATE otherwise. Its settings are in their ranges whatever the body (R66, R67). That an Attention
of OUTPUT_NOT_ON_AIR would go before the reply of the same instant is the model's choice (entry 7). -/
def Obligations.TimingIsWritten : Prop :=
  (∀ b t, readTiming b = some t →
    -500000 ≤ t.offset ∧ t.offset ≤ 500000 ∧ t.latency ≤ 2000000 ∧ t.guard ≤ 1000000
      ∧ 1000000 ≤ t.horizon ∧ t.horizon ≤ 50000000 ∧ (t.period = 0 ∨ (10000 ≤ t.period ∧ t.period ≤ 10000000))
      ∧ t.tolerance ≤ 100000 ∧ 1 ≤ t.credits ∧ t.credits ≤ 8 ∧ t.region ≤ 15)
  ∧ ∀ (p : Port) (r : Request) (s : State) (t : Timing), Serving .setSite p r s → readTiming r.body = some t →
    let st := if writeTiming t = r.body then Status.ok else .okClamped
    let extra := if writeTiming t = r.body then [] else writeTiming t
    (s.site.phase = .held →
      exec (.setSite p) s = .next (sendReply p r st extra
        { s with
          site := { s.site with timing := t }
          dev := refresh { s.site with timing := t } { s.dev with em := { s.dev.em with credits := t.credits } } }))
    ∧ (s.site.phase = .running → { t with offset := s.site.timing.offset } = s.site.timing →
      exec (.setSite p) s = .next (sendReply p r st extra
        (s.setSite { s.site with timing := { s.site.timing with offset := t.offset } })))
    ∧ (s.site.phase = .running → { t with offset := s.site.timing.offset } ≠ s.site.timing →
      exec (.setSite p) s = .next (sendReply p r .wrongState [] s))

/-- SetOutputMode sets the host choice, and the conditions follow; with no item waiting nothing else changes. Any value but 1, 2 and 3 is
BAD_FIELD (R75, R76). That the Attention of OUTPUT_NOT_ON_AIR goes before the reply of the same instant is the model's choice (entry
7). -/
def Obligations.HostChoiceIsSet : Prop :=
  ∀ (p : Port) (r : Request) (s : State), Serving .setOutputMode p r s →
    (∀ (c : HostChoice) (code : Byte), code = (match c with | .onAir => 1 | .mute => 2 | .standby => 3) → r.body = [code] →
      (∃ d, exec (.setOutputMode p) s = .next (sendReply p r .ok []
          { s with site := { s.site with hostChoice := c }, dev := d }))
      ∧ ((∀ k due, s.dev.em.item ≠ some ⟨k, due, .waiting⟩) →
        exec (.setOutputMode p) s = .next (sendReply p r .ok []
          { s with site := { s.site with hostChoice := c }, dev := refresh { s.site with hostChoice := c } s.dev })))
    ∧ (∀ code : Byte, r.body = [code] → code.toNat = 0 ∨ 4 ≤ code.toNat →
      exec (.setOutputMode p) s = .next (sendReply p r .badField [] s))

/-- SetSlot needs control and is received in both phases with a body of seven bytes; it writes the four fields of one slot table entry and
answers OK with those it held before, a filler clip id sent with filler absent being stored as absent; a byte outside its values is
BAD_FIELD, and the entry keeps its old values (R119). -/
def Obligations.SlotEntryIsWritten : Prop :=
  Kind.setSlot.Received 7 true
  ∧ ∀ (p : Port) (r : Request) (s : State) (code en ver l pres : Byte) (id : ClipId), Serving .setSlot p r s →
    r.body = code :: en :: ver :: l :: pres :: beBytes 2 id.toNat →
    (∀ (enabled present : Bool) (list : Option ListNo), en = (if enabled then 1 else 0) → pres = (if present then 1 else 0) →
      l = list.elim 255 (fun x => BitVec.ofNat 8 x.val) → (present = true → id ≠ 0) →
      let old := s.site.slotTable[code.toFin]
      exec (.setSlot p) s = .next (sendReply p r .ok
        ((if old.enabled then 1 else 0) :: old.version :: old.list.elim 255 (fun x => BitVec.ofNat 8 x.val)
          :: (if old.filler.isSome then 1 else 0) :: beBytes 2 (old.filler.elim 0 BitVec.toNat))
        (s.setSite { s.site with
          slotTable := s.site.slotTable.set code.toFin ⟨enabled, ver, list, if present then some id else none⟩ })))
    ∧ (2 ≤ en.toNat ∨ 2 ≤ pres.toNat ∨ (32 ≤ l.toNat ∧ l.toNat ≤ 254) ∨ (pres = 1 ∧ id = 0) →
      exec (.setSlot p) s = .next (sendReply p r .badField [] s))

/-- SetProgramme writes one programme's settings when its body is well formed, no other enabled programme has its cue SID, and it is not
busy in RUNNING; a busy programme draws BUSY and a cue SID in use BAD_FIELD, and then nothing changes (R134). The bytes of an absent SID
in the OK_CLAMPED reply are the model's choice (entry 15). -/
def Obligations.ProgrammeIsWritten : Prop :=
  (∀ (p : Port) (r : Request) (s : State), Serving .setProgramme p r s → readProgramme r.body = none →
    exec (.setProgramme p) s = .next (sendReply p r .badField [] s))
  ∧ ∀ (p : Port) (r : Request) (s : State) (q : ProgNo) (g : ProgrammeSet), Serving .setProgramme p r s →
    readProgramme r.body = some (q, g) →
    let taken := g.enabled = true ∧ g.cueSid ≠ none
      ∧ ∃ o : ProgNo, o ≠ q ∧ (s.site.progs[o]).enabled = true ∧ (s.site.progs[o]).cueSid = g.cueSid
    let busy := s.site.phase = .running ∧ ((s.dev.splice.progs[q]).active.isSome = true ∨ (s.dev.splice.progs[q]).queue ≠ []
      ∨ (s.dev.splice.progs[q]).ended ≠ [])
    1 ≤ g.preroll ∧ g.preroll ≤ 250
    ∧ (¬ taken → ¬ busy →
      exec (.setProgramme p) s = .next (sendReply p r
        (if g.preroll = (byteAt r.body 3).toNat then .ok else .okClamped)
        (if g.preroll = (byteAt r.body 3).toNat then [] else writeProgramme g)
        (s.setSite { s.site with progs := s.site.progs.set q g })))
    ∧ (taken → exec (.setProgramme p) s = .next (sendReply p r .badField [] s))
    ∧ (¬ taken → busy → exec (.setProgramme p) s = .next (sendReply p r .busy [] s))

/-- SetCounter gives a counter a class, the selector bits the class names, and value 0; an index above 7 or a class code above 13 is
BAD_FIELD (R167); ClearCounters clears the named values alone (R169); SnapshotCounters draws the eight counters and changes nothing
(R168). One event adds one to every counter of its class whose selector has the sub-event's bit, wrapping at 2^48, and to no other
counter; a wrap latches COUNTER_WRAP (R165, R166). -/
def Obligations.CountersCountAndAnswer : Prop :=
  Kind.setCounter.Received 3 true ∧ Kind.snapshotCounters.Received 0 false ∧ Kind.clearCounters.Received 1 true
  ∧ (∀ (p : Port) (r : Request) (s : State),
      (∀ (i : Fin 8) (cls : CountClass) (sel : Byte), Serving .setCounter p r s →
        r.body = [BitVec.ofNat 8 i.val, BitVec.ofNat 8 (classCode cls), sel] →
        exec (.setCounter p) s = .next (sendReply p r
          (if sel &&& classBits cls = sel then .ok else .okClamped)
          (if sel &&& classBits cls = sel then []
            else [BitVec.ofNat 8 i.val, BitVec.ofNat 8 (classCode cls), sel &&& classBits cls])
          (s.setDev { s.dev with counters := s.dev.counters.set i ⟨cls, sel &&& classBits cls, 0⟩ })))
      ∧ (∀ index cls sel : Byte, Serving .setCounter p r s → r.body = [index, cls, sel] → 8 ≤ index.toNat ∨ 14 ≤ cls.toNat →
        exec (.setCounter p) s = .next (sendReply p r .badField [] s))
      ∧ (∀ b : Byte, Serving .clearCounters p r s → r.body = [b] →
        ∃ v, exec (.clearCounters p) s = .next (sendReply p r .ok [] (s.setDev { s.dev with counters := v }))
          ∧ ∀ i : Fin 8, v[i] = if b.getLsbD i.val then { s.dev.counters[i] with value := 0 } else s.dev.counters[i])
      ∧ (Serving .snapshotCounters p r s →
        ∃ b, exec (.snapshotCounters p) s = .next (sendReply p r .ok b s) ∧ b.length = 64
          ∧ ∀ i : Fin 8, (b.drop (8 * i.val)).take 8 =
            BitVec.ofNat 8 (classCode (s.dev.counters[i]).cls) :: (s.dev.counters[i]).selector
              :: beBytes 6 (s.dev.counters[i]).value))
  ∧ (∀ (x : Site) (cls : CountClass) (sub : Nat) (d : Device),
      let hit := fun c : Counter => c.cls = cls ∧ c.selector.getLsbD sub = true
      (∀ i : Fin 8, ((count x cls sub d).counters[i]) =
        if (d.counters[i]).cls = cls ∧ (d.counters[i]).selector.getLsbD sub = true then
          { d.counters[i] with value := ((d.counters[i]).value + 1) % 281474976710656 }
        else { d.counters[i] with value := (d.counters[i]).value % 281474976710656 })
      ∧ ((∃ i : Fin 8, hit d.counters[i] ∧ (d.counters[i]).value = 281474976710655) → (count x cls sub d).latched.getLsbD 10 = true)
      ∧ ((∀ i : Fin 8, (d.counters[i]).value < 281474976710655) →
        count x cls sub d = { d with counters := (count x cls sub d).counters }))

/-! ### As-run records, lists and clips -/

/-- AsRunFetch needs control, is received in both phases with a body of one byte, removes the oldest records, at most the maximum count of
1 to 8, and returns them in order; ASRUN_PENDING follows the queue. A maximum count of 0 or above 8 is BAD_FIELD (R163). A completed
record takes the next record number and joins a queue with room; at a full queue it is lost, the lost count goes up and ASRUN_LOST is
latched (R155, R162). -/
def Obligations.AsRunQueueServes : Prop :=
  Kind.asRunFetch.Received 1 true
  ∧ (∀ (p : Port) (r : Request) (s : State) (n : Byte), Serving .asRunFetch p r s → r.body = [n] →
      (1 ≤ n.toNat → n.toNat ≤ 8 →
        exec (.asRunFetch p) s = .next (sendReply p r .ok
          (BitVec.ofNat 8 (min n.toNat s.dev.asrun.queue.length) :: (s.dev.asrun.queue.take n.toNat).flatMap encodeRecord)
          (s.setDev (refresh s.site
            { s.dev with asrun := { s.dev.asrun with queue := s.dev.asrun.queue.drop n.toNat } }))))
      ∧ (n.toNat = 0 ∨ 8 < n.toNat → exec (.asRunFetch p) s = .next (sendReply p r .badField [] s)))
  ∧ (∀ (x : Site) (rec_ : AsRunRecord) (d : Device),
      (d.asrun.queue.length < 64 →
        (pushRecord x rec_ d).asrun =
          { d.asrun with next := d.asrun.next + 1, queue := d.asrun.queue ++ [{ rec_ with number := d.asrun.next }] })
      ∧ (64 ≤ d.asrun.queue.length →
        (pushRecord x rec_ d).asrun = { d.asrun with next := d.asrun.next + 1, lost := d.asrun.lost + 1 }
          ∧ (pushRecord x rec_ d).latched = d.latched ||| 0x0100#16))

/-- ListInsert links the lowest free entry, naming a known clip or a new ABSENT record for an unknown one: after the tail of its list for
position TAIL, and in front of the given entry of the list for position BEFORE, where in front of the head is the new tail. It raises the
clip's use count by one and answers with the entry, the new length and whether a record was made (R123, R124). ListRemove: a free entry is
NOT_FOUND; an IDLE one is unlinked and freed, and its clip's use count goes down by one, where an ABSENT record that comes to 0 is freed
(R104, R125); an IN_USE one becomes RETIRING and stays linked, answered DEFERRED; a RETIRING one is answered DEFERRED and nothing changes
(R125, R126). -/
def Obligations.ListIsEdited : Prop :=
  (∀ (p : Port) (r : Request) (s : State) (l : ListNo) (pos : Byte) (before : EntryNo) (id : ClipId) (e : EntryNo) (place : PlaceNo)
      (c : ClipRecord) (made : Byte) (ring : List EntryNo),
    Serving .listInsert p r s → id ≠ 0 → r.body = BitVec.ofNat 8 l.val :: pos :: BitVec.ofNat 8 before.val :: beBytes 2 id.toNat →
    vfind s.dev.lists.pool Option.isNone = some e →
    (made = 0 ∧ findClip id s.dev = some place ∧ s.dev.cat.places[place] = some c
      ∨ made = 1 ∧ findClip id s.dev = none ∧ vfind s.dev.cat.places Option.isNone = some place ∧ c = ClipRecord.fresh id) →
    (pos = 1 ∧ ring = s.dev.lists.rings[l] ++ [e]
      ∨ pos = 2 ∧ (∃ x, s.dev.lists.pool[before] = some x ∧ x.list = l)
        ∧ ∃ pre post, s.dev.lists.rings[l] = pre ++ before :: post ∧ before ∉ pre
          ∧ ring = if pre = [] then s.dev.lists.rings[l] ++ [e] else pre ++ e :: before :: post) →
    exec (.listInsert p) s = .next (sendReply p r .ok
      (BitVec.ofNat 8 e.val :: beBytes 2 (s.dev.lists.rings[l].length + 1) ++ [made])
      (s.setDev { s.dev with
        lists := { pool := s.dev.lists.pool.set e (some ⟨l, id, .idle, []⟩), rings := s.dev.lists.rings.set l ring }
        cat := { s.dev.cat with places := s.dev.cat.places.set place (some { c with use := c.use + 1 }) } })))
  ∧ (∀ (p : Port) (r : Request) (s : State) (e : EntryNo) (x : RingEntry), Serving .listRemove p r s → r.body = [BitVec.ofNat 8 e.val] →
      (s.dev.lists.pool[e] = none → exec (.listRemove p) s = .next (sendReply p r .notFound [] s))
      ∧ (s.dev.lists.pool[e] = some x → x.state = .idle →
        ∃ d extra, exec (.listRemove p) s = .next (sendReply p r .ok extra (s.setDev d))
          ∧ d.lists.pool = s.dev.lists.pool.set e none
          ∧ d.lists.rings = s.dev.lists.rings.set x.list (s.dev.lists.rings[x.list].erase e)
          ∧ extra = BitVec.ofNat 8 x.list.val :: beBytes 2 (s.dev.lists.rings[x.list].erase e).length
              ++ [if (s.dev.lists.rings[x.list].erase e).isEmpty then 1 else 0]
          ∧ d = { s.dev with lists := d.lists, cat := d.cat } ∧ d.cat = { s.dev.cat with places := d.cat.places }
          ∧ (∀ (place : PlaceNo) (c : ClipRecord), findClip x.clip s.dev = some place → s.dev.cat.places[place] = some c →
            d.cat.places = s.dev.cat.places.set place
              (if c.state = .absent ∧ c.use - 1 = 0 then none else some { c with use := c.use - 1 })))
      ∧ (s.dev.lists.pool[e] = some x → x.state ≠ .idle →
        exec (.listRemove p) s = .next (sendReply p r .deferred
          (BitVec.ofNat 8 x.list.val :: beBytes 2 s.dev.lists.rings[x.list].length
            ++ [if s.dev.lists.rings[x.list].isEmpty then 1 else 0])
          (s.setDev { s.dev with lists :=
            { s.dev.lists with pool := s.dev.lists.pool.set e (some { x with state := .retiring }) } }))))

/-- A ClipOpen of an unknown or ABSENT id with room for it takes its blocks from the head of the free list, binds the lowest free context
and starts the record LOADING (R106, R107). -/
def Obligations.ClipIsOpened : Prop :=
  ∀ (p : Port) (r : Request) (s : State) (o : ClipOpenFields) (place : PlaceNo) (c : CtxNo), Serving .clipOpen p r s →
    readClipOpen r.body = some o → (o.source ≠ .link → findSource o.source s.dev = none) →
    (findClip o.id s.dev = some place ∧ (∃ old, s.dev.cat.places[place] = some old ∧ old.id = o.id ∧ old.state = .absent)
      ∨ findClip o.id s.dev = none ∧ vfind s.dev.cat.places Option.isNone = some place) →
    (o.length + 4095) / 4096 ≤ s.dev.cat.freeList.length → vfind s.dev.cat.ctxs Option.isNone = some c →
    let b := (o.length + 4095) / 4096
    ∃ rec_, exec (.clipOpen p) s = .next (sendReply p r .ok [BitVec.ofNat 8 c.val, BitVec.ofNat 8 b]
        (s.setDev { s.dev with cat :=
          { places := s.dev.cat.places.set place (some rec_)
            ctxs := s.dev.cat.ctxs.set c (some ⟨o.id, o.source, 0, none, 0xFFFFFFFF⟩)
            fifo := s.dev.cat.fifo
            freeList := s.dev.cat.freeList.drop b } }))
      ∧ rec_.id = o.id ∧ rec_.state = .loading ∧ rec_.length = o.length ∧ rec_.digest = o.digest
      ∧ rec_.blocks = s.dev.cat.freeList.take b ∧ rec_.loaded = 0 ∧ rec_.ignored = 0 ∧ rec_.ctx = some c
      ∧ rec_.damContinuity = false ∧ rec_.damFifo = false ∧ rec_.damDigest = false

/-- A ClipData of one to five cells for a LINK load with room in the load FIFO for those the clip still wants: each of these takes the
next position and joins the FIFO in the order carried, the cells beyond the clip's length are counted as ignored, and the LOAD burst of
the FIFO's head is asked for; without room the request is BUSY and changes nothing (R109, R111). -/
def Obligations.ClipCellsAreTaken : Prop :=
  ∀ (p : Port) (r : Request) (s : State) (id : ClipId) (cells : List Bytes) (place : PlaceNo) (c : ClipRecord) (k : CtxNo) (y : LoadCtx),
    Serving .clipData p r s → id ≠ 0 → 1 ≤ cells.length → cells.length ≤ 5 →
    (∀ cell ∈ cells, cell.length = 169 ∧ (byteAt cell 0).toNat ≤ 7) →
    r.body = beBytes 2 id.toNat ++ BitVec.ofNat 8 cells.length :: cells.flatten →
    findClip id s.dev = some place → s.dev.cat.places[place] = some c → c.state = .loading → c.ctx = some k →
    s.dev.cat.ctxs[k] = some y → y.source = .link →
    let m := min cells.length (c.length - y.accepted)
    (s.dev.cat.fifo.length + m ≤ 32 →
      exec (.clipData p) s = .next (sendReply p r .ok (BitVec.ofNat 8 m :: beBytes 3 (y.accepted + m))
        (s.setDev (askLoad s.site { s.dev with cat :=
          { s.dev.cat with
            places := s.dev.cat.places.set place (some { c with ignored := min (c.ignored + (cells.length - m)) 16777215 })
            ctxs := s.dev.cat.ctxs.set k (some { y with accepted := y.accepted + m })
            fifo := s.dev.cat.fifo ++ (cells.take m).zipIdx.map (fun x => ⟨x.1, k, y.accepted + x.2, true⟩) } }))))
    ∧ (0 < m → 32 < s.dev.cat.fifo.length + m → exec (.clipData p) s = .next (sendReply p r .busy [] s))

/-- ClipDelete, in the order of its checks: a clip id of 0 is BAD_FIELD, an unknown one NOT_FOUND, a LOADING or ABSENT record WRONG_STATE,
a playing one IN_USE; a READY or CORRUPT one that no break plays returns its blocks to the tail of the free list and is freed, or is kept
ABSENT while ring entries name it (R94, R104, R114). ClipAbort of a LOADING clip with a context answers the cells not loaded, takes its
entries from the load FIFO and leaves those of other loads in their order, returns its blocks, frees its context, and makes the record
ABSENT or frees it; the entry whose own LOAD burst is in progress stays until that burst completes, and the burst's effect is discarded
(R113). An entry that is no longer live belongs to a load aborted before (entry 6). -/
def Obligations.ClipStorageIsReturned : Prop :=
  Kind.clipDelete.Received 2 true
  ∧ (∀ (p : Port) (r : Request) (s : State) (id : ClipId), Serving .clipDelete p r s → r.body = beBytes 2 id.toNat →
      (id = 0 → exec (.clipDelete p) s = .next (sendReply p r .badField [] s))
      ∧ (id ≠ 0 → findClip id s.dev = none → exec (.clipDelete p) s = .next (sendReply p r .notFound [] s))
      ∧ (∀ (place : PlaceNo) (c : ClipRecord), id ≠ 0 → findClip id s.dev = some place → s.dev.cat.places[place] = some c →
        (c.state = .loading ∨ c.state = .absent → exec (.clipDelete p) s = .next (sendReply p r .wrongState [] s))
        ∧ (c.state = .ready ∨ c.state = .corrupt →
          (0 < c.play → exec (.clipDelete p) s = .next (sendReply p r .inUse [] s))
          ∧ (c.play = 0 → ∃ d, exec (.clipDelete p) s = .next (sendReply p r .ok [if c.use = 0 then 0 else 1] (s.setDev d))
            ∧ d.cat.freeList = s.dev.cat.freeList ++ c.blocks
            ∧ d.cat.places = s.dev.cat.places.set place (if c.use = 0 then none else some c.toAbsent)
            ∧ d.cat.ctxs = s.dev.cat.ctxs ∧ d.cat.fifo = s.dev.cat.fifo
            ∧ d = { s.dev with cat := d.cat, arb := d.arb }))))
  ∧ (∀ (p : Port) (r : Request) (s : State) (id : ClipId) (place : PlaceNo) (c : ClipRecord) (k : CtxNo), Serving .clipAbort p r s → id ≠ 0 →
      r.body = beBytes 2 id.toNat → findClip id s.dev = some place → s.dev.cat.places[place] = some c → c.state = .loading →
      c.ctx = some k →
      let aborted := fun (d : Device) (fifo : List LoadEntry) =>
        d.cat.fifo = fifo ∧ d.cat.freeList = s.dev.cat.freeList ++ c.blocks ∧ d.cat.ctxs = s.dev.cat.ctxs.set k none
          ∧ d.cat.places = s.dev.cat.places.set place (if c.use = 0 then none else some c.toAbsent)
          ∧ d.mem = s.dev.mem ∧ d.slots = s.dev.slots ∧ d.em = s.dev.em ∧ d.lists = s.dev.lists ∧ d.splice = s.dev.splice
      ((∀ t e, s.dev.arb.current = some ⟨.load, t, true⟩ → s.dev.cat.fifo.head? = some e → e.live = true → e.ctx ≠ k) →
        ∃ d, exec (.clipAbort p) s = .next (sendReply p r .ok (beBytes 3 (c.length - c.loaded)) (s.setDev d))
          ∧ aborted d (s.dev.cat.fifo.filter (fun e => !(e.live && e.ctx == k))))
      ∧ (∀ (b : BlockNo) (i : Fin 4096) (cell : Bytes) (e : LoadEntry) (rest : List LoadEntry),
        s.dev.arb.current = some ⟨.load, .block b i cell, true⟩ → b ∈ c.blocks → s.dev.cat.fifo = e :: rest → e.live = true → e.ctx = k →
        ∃ d, exec (.clipAbort p) s = .next (sendReply p r .ok (beBytes 3 (c.length - c.loaded)) (s.setDev d))
          ∧ aborted d ({ e with live := false } :: rest.filter (fun e => !(e.live && e.ctx == k)))
          ∧ d.arb.current = some ⟨.load, .block b i cell, false⟩))

/-! ### Cues and breaks -/

/-- CueAnswer on a QUERY cue: TAKE with a list arms it with that list and no filler; TAKE without one decides it by its slot code, which
arms it as the entry says, or applies its fallback with cause SLOT_DISABLED on a disabled entry and VERSION_MISMATCH on another version:
BLANK arms it blank, PASS removes it with a PASSED record; DECLINE removes it with a PASSED record of cause DECLINED; the list byte is not
examined but for TAKE with a list. Without such a cue the answer is TOO_LATE for an expired id, WRONG_STATE for an armed cue and NOT_FOUND
otherwise (R138, R140). That CUE_QUERY falls, ASRUN_PENDING rises and their Attentions go out before the reply of the same instant is the
model's choice (entry 7), and so is that CUE_QUERY falls before the record is completed (entry 33). -/
def Obligations.QueryIsAnswered : Prop :=
  ∀ (p : Port) (r : Request) (s : State) (q : ProgNo) (id : CueId) (l : ListNo) (pres : Bool) (other : Byte),
    Serving .cueAnswer p r s →
    let g := s.dev.splice.progs[q]
    let take := BitVec.ofNat 8 q.val :: beBytes 2 id.toNat ++ [1, 1, BitVec.ofNat 8 l.val]
    let lookup := BitVec.ofNat 8 q.val :: beBytes 2 id.toNat ++ [1, 0, other]
    let decline := BitVec.ofNat 8 q.val :: beBytes 2 id.toNat ++ [2, if pres then 1 else 0, other]
    (∀ c, r.body = take → g.queue.find? (fun c => c.id == id) = some c → c.decision = .query →
      exec (.cueAnswer p) s = .next (sendReply p r .ok [1] (s.setDev (refresh s.site (s.dev.updProg q (fun g =>
        { g with queue := g.queue.map (fun c =>
          if c.id == id then { c with decision := .armed (some l) none, cause := .none } else c) }))))))
    ∧ (∀ c, r.body = lookup → g.queue.find? (fun c => c.id == id) = some c → c.decision = .query →
      let e := s.site.slotTable[c.slotCode.toFin]
      (e.enabled = true → e.version = c.version →
        exec (.cueAnswer p) s = .next (sendReply p r .ok [1] (s.setDev (refresh s.site (s.dev.updProg q (fun g =>
          { g with queue := g.queue.map (fun c =>
            if c.id == id then { c with decision := .armed e.list e.filler, cause := .none } else c) }))))))
      ∧ (e.enabled = false → c.fallback = .blank →
        exec (.cueAnswer p) s = .next (sendReply p r .ok [2] (s.setDev (refresh s.site (s.dev.updProg q (fun g =>
          { g with queue := g.queue.map (fun c =>
            if c.id == id then { c with decision := .blank, cause := .slotDisabled } else c) }))))))
      ∧ (e.enabled = true → e.version ≠ c.version → c.fallback = .blank →
        exec (.cueAnswer p) s = .next (sendReply p r .ok [2] (s.setDev (refresh s.site (s.dev.updProg q (fun g =>
          { g with queue := g.queue.map (fun c =>
            if c.id == id then { c with decision := .blank, cause := .versionMismatch } else c) }))))))
      ∧ (e.enabled = false ∨ e.version ≠ c.version → c.fallback = .pass →
        exec (.cueAnswer p) s = .next (sendReply p r .ok [3] (s.setDev
          (immediateRecord s.site q id c.slotCode c.confirm .passed (if e.enabled then .versionMismatch else .slotDisabled)
            (refresh s.site (s.dev.updProg q (fun _ => { g with queue := g.queue.filter (fun c => c.id != id) }))))))))
    ∧ (∀ c, r.body = decline → g.queue.find? (fun c => c.id == id) = some c → c.decision = .query →
      exec (.cueAnswer p) s = .next (sendReply p r .ok [3] (s.setDev
        (immediateRecord s.site q id c.slotCode c.confirm .passed .declined
          (refresh s.site ((count s.site .cue 4 s.dev).updProg q (fun _ =>
            { g with queue := g.queue.filter (fun c => c.id != id) })))))))
    ∧ (r.body = take ∨ r.body = lookup ∨ r.body = decline → g.queue.find? (fun c => c.id == id) = none →
      exec (.cueAnswer p) s = .next (sendReply p r (if g.expired.contains id then .tooLate else .notFound) [] s))
    ∧ (∀ c, r.body = take ∨ r.body = lookup ∨ r.body = decline → g.queue.find? (fun c => c.id == id) = some c → c.decision ≠ .query →
      exec (.cueAnswer p) s = .next (sendReply p r (if g.expired.contains id then .tooLate else .wrongState) [] s))

/-- ProgrammeReset empties its programme's queue and expired list and closes its breaks; the other programmes, the settings, the restamp
table and the release buffer are untouched; the reply counts the cues and the breaks; a programme above 7 is BAD_FIELD (R153). -/
def Obligations.ProgrammeIsReset : Prop :=
  (∀ (p : Port) (r : Request) (s : State) (b : Byte), Serving .programmeReset p r s → 8 ≤ b.toNat → r.body = [b] →
    exec (.programmeReset p) s = .next (sendReply p r .badField [] s))
  ∧ ∀ (p : Port) (r : Request) (s : State) (q : ProgNo), Serving .programmeReset p r s → r.body = [BitVec.ofNat 8 q.val] →
    ∃ d, exec (.programmeReset p) s = .next (sendReply p r .ok
        [BitVec.ofNat 8 (s.dev.splice.progs[q]).queue.length,
          BitVec.ofNat 8 ((s.dev.splice.progs[q]).ended.length + (s.dev.splice.progs[q]).active.toList.length)] (s.setDev d))
      ∧ (d.splice.progs[q]).queue = [] ∧ (d.splice.progs[q]).active = none ∧ (d.splice.progs[q]).ended = []
      ∧ (d.splice.progs[q]).expired = []
      ∧ (∀ o : ProgNo, o ≠ q → d.splice.progs[o] = s.dev.splice.progs[o])
      ∧ d.em = s.dev.em ∧ d.sel = s.dev.sel ∧ d.intakeA = s.dev.intakeA ∧ d.intakeB = s.dev.intakeB

/-- A BREAK cue addressed to the site is refused by the first check that fails: CUE_LATE for a lead below the minimum pre-roll or of 2^23
or more, OVERLAP for an id in the queue or a range that meets a queued cue's or the active break's, QUEUE_FULL at 4 cues; and passes
otherwise (R137). A CANCEL removes a queued cue of its id with a CANCELLED record; on an active break of its id it moves the end down to
the cancel frame or, if later, to the frame after the last marked one, and in the second case the range ends; past the end, or for an id
that is neither, it does nothing (R142). A query expires when a frame not before out - 1 is admitted: it is counted, its id joins the
expired list of four, and its fallback applies with cause EXPIRED (R138, R139, R141). That CUE_QUERY follows the queue before the record
joins its queue is the model's choice (entry 33). -/
def Obligations.CueChecksInOrder : Prop :=
  (∀ (set : ProgrammeSet) (g : Programme) (c : Cue),
    let lead := (c.out - c.carrier).toNat
    let meets := (∃ h ∈ g.queue, h.id = c.id ∨ rangesMeet c.out c.length h.out h.length = true)
      ∨ (∃ b, g.active = some b ∧ rangesMeet c.out c.length b.out (b.endF - b.out).toNat = true)
    (lead < set.preroll ∨ 8388608 ≤ lead → refusalCause set g c = .cueLate)
    ∧ (set.preroll ≤ lead → lead < 8388608 →
      (meets → refusalCause set g c = .overlap)
      ∧ (¬ meets → 4 ≤ g.queue.length → refusalCause set g c = .queueFull)
      ∧ (¬ meets → g.queue.length < 4 → refusalCause set g c = .none)))
  ∧ (∀ (x : Site) (p : ProgNo) (r : CueRecord) (d : Device),
      let g := d.splice.progs[p]
      (∀ c, g.queue.find? (fun c => c.id == r.id) = some c →
        takeCancel x p r d = immediateRecord x p r.id c.slotCode c.confirm .cancelled .cancelCue
          (refresh x ((count x .cue 5 d).updProg p (fun _ => { g with queue := g.queue.filter (fun c => c.id != r.id) }))))
      ∧ (∀ b k, g.queue.find? (fun c => c.id == r.id) = none → g.active = some b → b.cue = r.id → b.lastMarked = some k →
        g.ended = [] → g.closed = [] →
        (isBefore r.out b.endF = true → isAfter r.out (k + 1) = true →
          takeCancel x p r d = (count x .cue 5 d).updProg p (fun _ => { g with active := some { b with endF := r.out, cause := .cancelCue } }))
        ∧ (isBefore r.out b.endF = true → r.out = k + 1 ∨ isAfter (k + 1) r.out = true →
          ((takeCancel x p r d).splice.progs[p]).active = none
            ∧ (0 < b.work → ((takeCancel x p r d).splice.progs[p]).ended = [{ b with endF := k + 1, cause := .cancelCue }]))
        ∧ (isBefore r.out b.endF = false → takeCancel x p r d = d))
      ∧ (g.queue.find? (fun c => c.id == r.id) = none → (∀ b, g.active = some b → b.cue ≠ r.id) → takeCancel x p r d = d))
  ∧ (∀ (x : Site) (slot : SlotNo) (k : FrameNo) (p : ProgNo) (c : Cue) (d : Device),
      let g := d.splice.progs[p]
      let kept := if g.expired.length < 4 then g.expired else g.expired.drop 1
      let d1 := (count x .cue 3 d).updProg p (fun _ => { g with expired := kept ++ [c.id] })
      (x.progs[p]).enabled = true → g.active = none → g.queue = [c] → c.decision = .query →
      (isAfter (c.out - 1) k = true → isAfter c.out k = true → programmeTurn x slot k d p = d)
      ∧ (k = c.out - 1 → c.fallback = .blank →
        programmeTurn x slot k d p = refresh x (d1.updProg p (fun g => { g with queue := [{ c with decision := .blank, cause := .expired }] })))
      ∧ (k = c.out - 1 → c.fallback = .pass →
        programmeTurn x slot k d p = immediateRecord x p c.id c.slotCode c.confirm .passed .expired
          (refresh x (d1.updProg p (fun g => { g with queue := [] })))))

/-! ### Feeds, selector and arbiter -/

/-- Delineation in RUNNING: in HUNT a sync byte starts PRESYNC and any other byte is passed over; in PRESYNC bytes are counted to the
176th after the last sync byte, where a sync byte raises the count, the third one gives SYNC, as the first byte of the cell that arrives,
with every continuity entry unknown, and any other byte returns to HUNT. In HELD no byte is examined (R13, R15, R26). That the sync byte
of SYNC is held as the first of the cell position is entry 3, and that FEED_DOWN and OUTPUT_NOT_ON_AIR fall together is entry 24. -/
def Obligations.DelineationFindsSync : Prop :=
  ∀ (f : Feed) (b : Byte) (s : State),
    let i := s.dev.intake f
    (s.site.phase = .held → exec (.feedDelineationByte f b) s = .next s)
    ∧ (s.site.phase = .running → i.delin = .hunt → b = 0xB8 →
      exec (.feedDelineationByte f b) s = .next (s.setDev (s.dev.setIntake f { i with delin := .presync, since := 0, found := 1 })))
    ∧ (s.site.phase = .running → i.delin = .hunt → b ≠ 0xB8 → exec (.feedDelineationByte f b) s = .next s)
    ∧ (s.site.phase = .running → i.delin = .presync → i.since + 1 < 176 →
      exec (.feedDelineationByte f b) s = .next (s.setDev (s.dev.setIntake f { i with since := i.since + 1 })))
    ∧ (s.site.phase = .running → i.delin = .presync → i.since = 175 → b ≠ 0xB8 →
      exec (.feedDelineationByte f b) s = .next (s.setDev (s.dev.setIntake f { i with delin := .hunt, since := 0, found := 0 })))
    ∧ (s.site.phase = .running → i.delin = .presync → i.since = 175 → b = 0xB8 → i.found = 1 →
      exec (.feedDelineationByte f b) s = .next (s.setDev (s.dev.setIntake f { i with since := 0, found := 2 })))
    ∧ (s.site.phase = .running → i.delin = .presync → i.since = 175 → b = 0xB8 → i.found = 2 →
      exec (.feedDelineationByte f b) s = .next (s.setDev (refresh s.site (s.dev.setIntake f
        { i with delin := .sync, since := 0, found := 0, misses := 0, silence := 0, cellSoFar := [0xB8], continuity := [] }))))

/-- Bytes of a cell position in SYNC (R14, R16, R17; that they come in runs, each of one command, is entry 3). They restart the silence;
the first byte of the position sets the count of misses in a row, here below the fourth; bytes that do not end the position join those
already there. The last byte ends it: the position of a miss, or a cell whose header is not valid, is dropped and counted as HEADER_CHECK;
a good marker opens an arrival frame and joins a FIFO with room; a data cell joins the FIFO while a taking goes on, and ends the taking at
the declared index; it is lost and charged as OVERRUN at a full FIFO; and a stray is dropped as NO_SLOT. -/
def Obligations.CellPositionIsJudged : Prop :=
  ∀ (f : Feed) (bytes : Bytes) (s : State), s.site.phase = .running → (s.dev.intake f).delin = .sync → bytes ≠ [] →
    (s.dev.intake f).assembly = none →
    let i := s.dev.intake f
    let cell := i.cellSoFar ++ bytes
    let misses := if i.cellSoFar ≠ [] then i.misses else if byteAt bytes 0 = 0xB8 then 0 else i.misses + 1
    (i.cellSoFar = [] → misses < 4) →
    (cell.length < 176 →
      exec (.feedCellPosition f bytes) s = .next (s.setDev (s.dev.setIntake f
        { i with misses := misses, silence := 0, cellSoFar := cell })))
    ∧ (cell.length = 176 → byteAt cell 0 ≠ 0xB8 ∨ headerValid cell = false →
      exec (.feedCellPosition f bytes) s = .next (s.setDev (count s.site .cellDrop 0
        (s.dev.setIntake f { i with misses := misses, silence := 0, cellSoFar := [] }))))
    ∧ (cell.length = 176 → byteAt cell 0 = 0xB8 → headerValid cell = true → (parseHeader cell).sid = 4095#12 →
      markerBad (parseMarker cell) = false → i.fifo.length < 64 → i.arrivals = [] →
      exec (.feedCellPosition f bytes) s = .next (s.setDev (s.dev.setIntake f
        { i with
          misses := misses, silence := 0, cellSoFar := [], fifo := i.fifo ++ [.marker cell]
          arrivals := [⟨(parseMarker cell).count, false, false, false⟩] })))
    ∧ (∀ a : ArrivalFrame, cell.length = 176 → byteAt cell 0 = 0xB8 → headerValid cell = true → (parseHeader cell).sid ≠ 4095#12 →
      i.arrivals = [a] → a.ended = false → i.fifo.length < 64 →
      exec (.feedCellPosition f bytes) s = .next (s.setDev (s.dev.setIntake f
        { i with
          misses := misses, silence := 0, cellSoFar := [], fifo := i.fifo ++ [.data cell]
          arrivals := [{ a with ended := (parseHeader cell).index.toNat == a.declared }] })))
    ∧ (∀ a : ArrivalFrame, cell.length = 176 → byteAt cell 0 = 0xB8 → headerValid cell = true → (parseHeader cell).sid ≠ 4095#12 →
      i.arrivals = [a] → a.ended = false → 64 ≤ i.fifo.length →
      exec (.feedCellPosition f bytes) s = .next (s.setDev (count s.site .cellDrop 1 (s.dev.setIntake f
        { i with
          misses := misses, silence := 0, cellSoFar := []
          arrivals := [{ a with overrun := true, ended := (parseHeader cell).index.toNat == a.declared }] }))))
    ∧ (cell.length = 176 → byteAt cell 0 = 0xB8 → headerValid cell = true → (parseHeader cell).sid ≠ 4095#12 → i.arrivals = [] →
      exec (.feedCellPosition f bytes) s = .next (s.setDev (count s.site .cellDrop 2
        (s.dev.setIntake f { i with misses := misses, silence := 0, cellSoFar := [] }))))

/-- A silence of 100,000 ticks in SYNC loses it, and so does the first byte of a position at the fourth miss in a row: the intake is in
HUNT, the cell then arriving is abandoned, an arrival frame whose taking goes on is ended and damaged with SYNC_LOSS, and FEED_DOWN
follows. Stated for an intake that assembles no frame, with no held copy to hand over and no item waiting at the output (R14, R31). That
the byte comes as a command of its own is entry 3, and that FEED_DOWN and OUTPUT_NOT_ON_AIR show together in an Attention is entry 24. -/
def Obligations.SilenceLosesSync : Prop :=
  ∀ (f : Feed) (c : Instr) (s : State), (s.dev.intake f).delin = .sync → (s.dev.intake f).assembly = none →
    (c = .feedSilence f ∧ 100000 ≤ (s.dev.intake f).silence
      ∨ ∃ b : Byte, c = .feedCellPosition f [b] ∧ b ≠ 0xB8 ∧ s.site.phase = .running ∧ (s.dev.intake f).cellSoFar = []
        ∧ (s.dev.intake f).misses = 3) →
    (∀ e ∈ s.dev.sel.table, e.held = none) → s.dev.em.item = none →
    let i := s.dev.intake f
    (∀ a, i.arrivals = [a] → a.ended = false →
      exec c s = .next (s.setDev (refresh s.site (s.dev.setIntake f
        { i with delin := .hunt, since := 0, found := 0, misses := 0, silence := 0, cellSoFar := []
                 arrivals := [{ a with ended := true, syncLoss := true }] }))))
    ∧ (i.arrivals = [] →
      exec c s = .next (s.setDev (refresh s.site (s.dev.setIntake f
        { i with delin := .hunt, since := 0, found := 0, misses := 0, silence := 0, cellSoFar := [] }))))

/-- A marker at the head with no frame in assembly and its frame's taking still going on: the lowest FREE slot becomes ASSEMBLING with a
record filled from the marker, and the snapshots are taken; with no FREE slot the frame has none (R18, R19, R20, R88). -/
def Obligations.MarkerOpensFrame : Prop :=
  ∀ (f : Feed) (cell : Bytes) (rest : List FifoEntry) (a : ArrivalFrame) (more : List ArrivalFrame) (s : State),
    (s.dev.intake f).fifo = .marker cell :: rest → (s.dev.intake f).assembly = none →
    (s.dev.intake f).arrivals = a :: more → a.ended = false →
    let i := s.dev.intake f
    let opened := fun slot : Option SlotNo =>
      { i with
        fifo := rest
        assembly := some ⟨slot, 1, s.site.windows, s.site.defaultAction, programmeSnapshot s.site, none⟩
        continuity := i.continuity.filter (fun c => isComponent (programmeSnapshot s.site) c.1) }
    (∀ slot : SlotNo, (s.dev.slots[slot]).state = .free → (∀ j < slot, (s.dev.slots[j]).state ≠ .free) →
      exec (.intakeMarkerAtHead f) s = .next (s.setDev ((s.dev.updSlot slot (fun _ =>
        { Record.empty with
          state := .assembling, feed := some f, number := some (parseMarker cell).number
          stamp := some ((parseMarker cell).stampSecs, (parseMarker cell).stampTicks)
          declared := (parseMarker cell).count, marker := cell, running := 0xFFFFFFFF, expected := (parseMarker cell).check
          damage := { Damage.empty with stampRange := decide (10000000 ≤ (parseMarker cell).stampTicks) } })).setIntake f
            (opened (some slot)))))
    ∧ ((∀ j : SlotNo, (s.dev.slots[j]).state ≠ .free) →
      exec (.intakeMarkerAtHead f) s = .next (s.setDev (s.dev.setIntake f (opened none))))

/-- A data cell at the head (R18, R20, R22 to R28, R110): without a slot it is dropped as NO_SLOT; beyond the declared count or behind the
expected index it is dropped with OVERLONG; and otherwise it is accepted into its position, the running check takes it in, MISSING is
noted where positions were passed over, and its burst is asked for. An accepted PAYLOAD cell of a component SID whose count is not the
expected one counts CONTINUITY, unless its discontinuity flag is set or none is expected, and the next count is expected from then on; a
SIGNAL cell of a cue SID joins the cue list of the frame, or counts as a malformed cue where the list holds 4. On no window under CARRY,
or on a winning CARRY window, the cell keeps its place, with its SID translated where the window translates it, and the programme with
that component SID owns the position unless the cell is a null cell. Under a winning DROP window, or on no window under DROP, its place
takes a null cell and WINDOW_DROP is counted. Under a winning LOAD window its place takes a null cell too; with no context bound to its
SID and feed LOAD_UNBOUND is counted, and a bound context ignores it and counts it in its record where it is no PAYLOAD cell or the load
has all its cells, notes damage CONTINUITY where its count is not the expected one, and takes it into the load FIFO, or notes damage FIFO
where the FIFO is full. That the loader asks before the intake is entry 28. -/
def Obligations.HeadCellIsJudged : Prop :=
  ∀ (f : Feed) (cell : Bytes) (rest : List FifoEntry) (a : Assembly) (fr : ArrivalFrame) (more : List ArrivalFrame) (s : State),
    (s.dev.intake f).fifo = .data cell :: rest → (s.dev.intake f).assembly = some a → a.writing = none →
    s.dev.arb.outstanding (intakeRequestor f) = false → (s.dev.intake f).arrivals = fr :: more → fr.ended = false →
    let i := s.dev.intake f
    let h := parseHeader cell
    (a.slot = none →
      exec (.intakeCellAtHead f) s = .next (s.setDev (count s.site .cellDrop 2 (s.dev.setIntake f { i with fifo := rest }))))
    ∧ (∀ slot, a.slot = some slot → (s.dev.slots[slot]).declared < h.index.toNat ∨ h.index.toNat < a.next →
      exec (.intakeCellAtHead f) s = .next (s.setDev ((s.dev.updSlot slot (fun r =>
        { r with damage := { r.damage with overlong := true } })).setIntake f { i with fifo := rest })))
    ∧ (∀ (slot : SlotNo) (pl : Fin 256), a.slot = some slot → h.index.toNat = pl.val + 1 → a.next ≤ h.index.toNat →
      h.index.toNat ≤ (s.dev.slots[slot]).declared →
      let tracked := h.qual == .payload && isComponent a.progs h.sid
      let mismatch := tracked && !h.disc && (i.continuity.find? (fun c => c.1 == h.sid)).any (fun c => h.cont != c.2)
      let isCue := h.qual == .signal && a.progs.any (fun g => g.cueSid == some h.sid)
      let room := decide ((s.dev.slots[slot]).cues.length < 4)
      let checked := if mismatch then count s.site .continuity (match f with | .a => 0 | .b => 1) s.dev else s.dev
      let judged := if isCue && !room then count s.site .cue 6 checked else checked
      let placed := fun (stored : Bytes) (entry : HeaderEntry) (d : Device) =>
        exec (.intakeCellAtHead f) s = .next (s.setDev (ask s.site (intakeRequestor f) (.intake slot pl stored)
          ((d.updSlot slot (fun r =>
            { r with
              running := frameCheckMore r.running cell
              damage := { r.damage with missing := r.damage.missing || decide (a.next < h.index.toNat) }
              cues := if isCue && room then r.cues ++ [⟨h.sid, h.index.toNat, payloadOf cell⟩] else r.cues })).setIntake f
            { i with
              continuity :=
                if tracked then i.continuity.filter (fun c => c.1 != h.sid) ++ [(h.sid, h.cont + 1)] else i.continuity
              assembly := some { a with next := h.index.toNat + 1, writing := some entry } })))
      let carried := fun sid : Sid =>
        (⟨h.index.toNat, sid, h.qual, if isNullCell sid cell then none else ownerOf a.progs sid, false⟩ : HeaderEntry)
      let nulled := placed (nullCell h.index.toNat) ⟨h.index.toNat, 4094, .null, none, false⟩
      (winningWindow a.windows f h.sid = none →
        (a.defaultAction = .carry → placed cell (carried h.sid) judged)
        ∧ (a.defaultAction = .drop → nulled (count s.site .cellDrop 3 judged)))
      ∧ ∀ win, winningWindow a.windows f h.sid = some win →
        (win.kind = .carry → win.translate = none → placed cell (carried h.sid) judged)
        ∧ (∀ t, win.kind = .carry → win.translate = some t →
          let sid := (t &&& win.mask) ||| (h.sid &&& ~~~win.mask)
          ∃ stored, parseHeader stored = { h with sid := sid } ∧ payloadOf stored = payloadOf cell ∧ placed stored (carried sid) judged)
        ∧ (win.kind = .drop → nulled (count s.site .cellDrop 3 judged))
        ∧ (win.kind = .load → findSource (.feed f h.sid) s.dev = none → nulled (count s.site .cellDrop 4 judged))
        ∧ (∀ (n : CtxNo) (y : LoadCtx) (place : PlaceNo) (c : ClipRecord), win.kind = .load →
          findSource (.feed f h.sid) s.dev = some n → s.dev.cat.ctxs[n] = some y → findClip y.clip s.dev = some place →
          s.dev.cat.places[place] = some c →
          let clip := fun r : ClipRecord => s.dev.cat.places.set place (some r)
          let ctx := fun z : LoadCtx => s.dev.cat.ctxs.set n (some { z with expected := some (h.cont + 1) })
          let broken := !h.disc && y.expected.any (fun e => h.cont != e)
          let noted := { c with damContinuity := c.damContinuity || broken }
          (h.qual ≠ .payload ∨ y.accepted = c.length →
            nulled { judged with cat := { s.dev.cat with places := clip { c with ignored := min (c.ignored + 1) 16777215 } } })
          ∧ (h.qual = .payload → y.accepted ≠ c.length → 32 ≤ s.dev.cat.fifo.length →
            nulled { judged with cat := { s.dev.cat with places := clip { noted with damFifo := true }, ctxs := ctx y } })
          ∧ (h.qual = .payload → y.accepted ≠ c.length → s.dev.cat.fifo.length < 32 →
            nulled (askLoad s.site { judged with cat :=
              { s.dev.cat with
                places := clip noted
                ctxs := ctx { y with accepted := y.accepted + 1 }
                fifo := s.dev.cat.fifo ++ [⟨(h.aux &&& 7) :: payloadOf cell, n, y.accepted, true⟩] } }))))

/-- A completed intake burst puts its cell in its position, counts it, describes it in the header list and lets its entry leave the FIFO,
and the arbiter decides (R18, R28, R97). A burst whose effect was discarded puts its cell in its position and does nothing else (R90).
When the entry was the last of a frame whose taking had ended, the frame completes: what arrival noted joins its damage, every hole adds
MISSING, a frame without damage whose check fails gets CHECK, it is counted as FRAME_COMPLETE, VALID or DAMAGED, and the selector takes it
(R29, R30). The address of a position, 176 bytes a cell and 256 cells a slot from address 0 on, is the model's layout of site memory
(entry 14); that the arbiter decides before the frame completes is entry 7. -/
def Obligations.IntakeBurstWrites : Prop :=
  ∀ (f : Feed) (slot : SlotNo) (pl : Fin 256) (cell : Bytes) (a : Assembly) (e : HeaderEntry) (fr : ArrivalFrame)
      (more : List ArrivalFrame) (s : State),
    let stored : Device := { s.dev with mem := memWriteRun s.dev.mem ((slot.val * 256 + pl.val) * 176) cell }
    let r : Record := { s.dev.slots[slot] with
      written := (s.dev.slots[slot]).written + 1, headers := (s.dev.slots[slot]).headers ++ [e] }
    let written := ({ stored with slots := s.dev.slots.set slot r }).setIntake f
      { s.dev.intake f with fifo := (s.dev.intake f).fifo.drop 1, assembly := some { a with writing := none } }
    (s.dev.arb.current = some ⟨intakeRequestor f, .intake slot pl cell, true⟩ → (s.dev.intake f).assembly = some a → a.writing = some e →
      (s.dev.intake f).arrivals = fr :: more →
      (fr.ended = false → exec (.intakeBurstComplete f) s = .next (s.setDev (endBurst s.site written)))
      ∧ (fr.ended = true → a.slot = some slot → (∀ c rest, (s.dev.intake f).fifo.drop 1 ≠ .data c :: rest) →
        ∀ noted final : Damage, noted = { r.damage with
            overrun := r.damage.overrun || fr.overrun
            syncLoss := r.damage.syncLoss || fr.syncLoss
            missing := r.damage.missing || decide (∃ n : Fin r.declared, ∀ h ∈ r.headers, h.pos ≠ n.val + 1) } →
          final = (if noted = Damage.empty ∧ r.running ≠ r.expected then { noted with check := true } else noted) →
          exec (.intakeBurstComplete f) s = .next (s.setDev (takeCopy s.site f slot (decide (final = Damage.empty))
            (countComplete s.site f (decide (final = Damage.empty))
              ((((endBurst s.site written).setIntake f
                { s.dev.intake f with fifo := (s.dev.intake f).fifo.drop 1, assembly := none, arrivals := more }).updSlot slot (fun _ =>
                  { r with damage := final, completed := some s.site.tb.now }))))))))
    ∧ (s.dev.arb.current = some ⟨intakeRequestor f, .intake slot pl cell, false⟩ →
      exec (.intakeBurstComplete f) s = .next (s.setDev (endBurst s.site stored)))

/-- What the selector does with a completed copy (R34, R36, R38 to R43): a copy of a decided number is freed and counted as DUPLICATE; a
VALID copy in FIRST_VALID, or of feed A, with no entry decides its number and is handed to admission; a DAMAGED copy whose other feed was
damaged too, with none held, is freed and the frame is MISSING; and in PRIMARY_A with feed A in SYNC a VALID copy of feed B with no entry
waits, PENDING, for the shorter of the pairing wait and what its due instant leaves above the guard. -/
def Obligations.CopyIsTaken : Prop :=
  ∀ (x : Site) (f : Feed) (slot : SlotNo) (valid : Bool) (d : Device),
    let n := (d.slots[slot]).frameNo
    let decided : List FrameNo := (if d.sel.decided.length < 16 then d.sel.decided else d.sel.decided.drop 1) ++ [n]
    (n ∈ d.sel.decided → takeCopy x f slot valid d = freeSlot slot (count x .frameDecided 5 d))
    ∧ (n ∉ d.sel.decided → valid = true → x.selMode = .firstValid ∨ f = .a → d.sel.table.find? (fun e => e.number == n) = none →
      takeCopy x f slot valid d = handOver x slot { d with sel := ⟨decided, d.sel.table⟩ })
    ∧ (∀ e, n ∉ d.sel.decided → valid = false → d.sel.table.find? (fun e => e.number == n) = some e → e.held = none →
      (match f with | .a => e.damagedB | .b => e.damagedA) = true →
      takeCopy x f slot valid d = count x .frameDecided 6
        { freeSlot slot d with sel := ⟨decided, d.sel.table.filter (fun e => e.number != n)⟩ })
    ∧ (∀ w : Nat, n ∉ d.sel.decided → valid = true → x.selMode = .primaryA → f = .b → d.intakeA.delin = .sync →
      d.sel.table.find? (fun e => e.number == n) = none → d.sel.table.length < 8 → 0 < w →
      (w : Int) = min (x.pairWait : Int) (leadOf x.tb (stampDue x ((d.slots[slot]).stamp.getD (0, 0))) - x.timing.guard) →
      takeCopy x f slot valid d =
        { d with
          slots := d.slots.set slot { d.slots[slot] with state := .pending }
          sel := ⟨d.sel.decided, d.sel.table ++ [⟨n, some (slot, .b), false, false, w⟩]⟩ })

/-- The end of a pairing wait decides its number: with no held copy the frame is MISSING and counted, with a held copy that copy is handed
to admission (R34, R44, R47). That the row leaves an entry whose wait still runs alone is the model's choice (entry 2). -/
def Obligations.WaitEndDecides : Prop :=
  ∀ (n : FrameNo) (e : PairEntry) (s : State), s.dev.sel.table.find? (fun e => e.number == n) = some e →
    let l := s.dev.sel.decided
    let decided : Device :=
      { s.dev with sel :=
        ⟨(if l.length < 16 then l else l.drop 1) ++ [n], s.dev.sel.table.filter (fun e => e.number != n)⟩ }
    (0 < e.wait → exec (.pairingWaitEnd n) s = .next s)
    ∧ (e.wait = 0 → e.held = none → exec (.pairingWaitEnd n) s = .next (s.setDev (count s.site .frameDecided 6 decided)))
    ∧ (∀ slot f, e.wait = 0 → e.held = some (slot, f) →
      exec (.pairingWaitEnd n) s = .next (s.setDev (handOver s.site slot decided)))

/-- The arbiter's decision grants the waiting requestor with the lowest effective priority, the earliest in the fixed order among equals;
each other waiting requestor improves by one but not below 0, and the granted one returns to its initial priority (R97). SetArbiter sets
the five initial priorities, each lowered to 7 at most, and every effective priority with them; a lowered one makes the answer OK_CLAMPED
with the five values used (R101). -/
def Obligations.ArbiterDecidesAndIsSet : Prop :=
  (∀ (a : Arbiter) (g : Fin 5) (t : Target), a.choice = some g →
      (a.waiting[g]).isSome = true
      ∧ (∀ i : Fin 5, (a.waiting[i]).isSome = true → i ≠ g →
        a.effective[g] < a.effective[i] ∨ (a.effective[g] = a.effective[i] ∧ g < i))
      ∧ (a.decide_ g t).effective[g] = a.initial[g] ∧ (a.decide_ g t).waiting[g] = none
      ∧ (∀ i : Fin 5, i ≠ g →
        (a.decide_ g t).effective[i] = (if (a.waiting[i]).isSome then a.effective[i] - 1 else a.effective[i])
          ∧ (a.decide_ g t).waiting[i] = a.waiting[i])
      ∧ (a.decide_ g t).current = some ⟨Requestor.ofIdx g, t, true⟩)
  ∧ (∀ (p : Port) (r : Request) (s : State) (a b c d e : Byte), Serving .setArbiter p r s → r.body = [a, b, c, d, e] →
      let v : Vector Nat 5 := #v[min a.toNat 7, min b.toNat 7, min c.toNat 7, min d.toNat 7, min e.toNat 7]
      let low := a.toNat ≤ 7 ∧ b.toNat ≤ 7 ∧ c.toNat ≤ 7 ∧ d.toNat ≤ 7 ∧ e.toNat ≤ 7
      exec (.setArbiter p) s = .next (sendReply p r (if low then .ok else .okClamped)
        (if low then [] else v.toList.map (BitVec.ofNat 8))
        (s.setDev { s.dev with arb := { s.dev.arb with initial := v, effective := v } })))

/-! ### Site time -/

/-- A good pulse with no label pending, in LOCKED, UNSET or ACQUIRING or, with the reference PRESENT, HOLDOVER: site time is set to the
second and the pulse is counted as PULSE_GOOD. LOCKED is kept or regained with the outlier count at 0, and no notice is given; in
ACQUIRING the good count goes up by one, or to 0 with the reference ABSENT, and the pulse that brings it to the pulses to lock gives
LOCKED with the outlier count at 0. In HOLDOVER with the reference ABSENT the pulse aligns with the outlier count at 0 and the state stays
HOLDOVER; where the alignment makes a second boundary it is counted as a holdover second, and the one that reaches the limit gives EXPIRED
with holdover seconds at 0 (R51, R52, R54 to R58). That this boundary counts also where a reference loss came before on the same tick is
entry 26. The round of the seconds count, left open here, is the model's (entry 5); that the conditions it changes show together is entry
24. -/
def Obligations.GoodPulseAligns : Prop :=
  ∀ s : State, s.site.tb.ticks < 10000000 → s.site.tb.label = none →
    (s.site.tb.ticks ≤ s.site.tb.lockWindow ∧ s.site.tb.ticks < 5000000
      ∨ 5000000 ≤ s.site.tb.ticks ∧ 10000000 - s.site.tb.ticks ≤ s.site.tb.lockWindow) →
    let secs := if s.site.tb.ticks < 5000000 then s.site.tb.secs else s.site.tb.secs + 1
    ∃ era, let tb := { s.site.tb with secs := secs, ticks := 0, pulseSeen := true, era := era }
      (s.site.tb.disc = .unset →
        exec .referencePulse s = .next ((s.setTb tb).setDev (refresh { s.site with tb := tb } (count s.site .time 0 s.dev))))
      ∧ (s.site.tb.disc = .locked →
        exec .referencePulse s = .next ((s.setTb { tb with outliers := 0 }).setDev
          (refresh { s.site with tb := { tb with outliers := 0 } } (count s.site .time 0 s.dev))))
      ∧ (s.site.tb.disc = .holdover → s.site.tb.present = true →
        exec .referencePulse s = .next ((s.setTb { tb with disc := .locked, outliers := 0, holdover := 0 }).setDev
          (refresh { s.site with tb := { tb with disc := .locked, outliers := 0, holdover := 0 } } (count s.site .time 0 s.dev))))
      ∧ (s.site.tb.disc = .acquiring → s.site.tb.present = true → s.site.tb.good + 1 < s.site.tb.pulsesToLock →
        exec .referencePulse s = .next ((s.setTb { tb with good := s.site.tb.good + 1 }).setDev
          (refresh { s.site with tb := { tb with good := s.site.tb.good + 1 } } (count s.site .time 0 s.dev))))
      ∧ (s.site.tb.disc = .acquiring → s.site.tb.present = false →
        exec .referencePulse s = .next ((s.setTb { tb with good := 0 }).setDev
          (refresh { s.site with tb := { tb with good := 0 } } (count s.site .time 0 s.dev))))
      ∧ (s.site.tb.disc = .acquiring → s.site.tb.present = true → s.site.tb.pulsesToLock ≤ s.site.tb.good + 1 →
        (∀ k due, s.dev.em.item ≠ some ⟨k, due, .waiting⟩) →
        exec .referencePulse s = .next ((s.setTb { tb with disc := .locked, good := s.site.tb.good + 1, outliers := 0 }).setDev
          (refresh { s.site with tb := { tb with disc := .locked, good := s.site.tb.good + 1, outliers := 0 } }
            (count s.site .time 0 s.dev))))
      ∧ (s.site.tb.disc = .holdover → s.site.tb.present = false →
        (s.site.tb.ticks < 5000000 →
          exec .referencePulse s = .next ((s.setTb { tb with outliers := 0 }).setDev
            (refresh { s.site with tb := { tb with outliers := 0 } } (count s.site .time 0 s.dev))))
        ∧ (5000000 ≤ s.site.tb.ticks → s.site.tb.holdover + 1 < s.site.tb.holdoverLimit →
          exec .referencePulse s = .next ((s.setTb { tb with outliers := 0, holdover := s.site.tb.holdover + 1 }).setDev
            (refresh { s.site with tb := { tb with outliers := 0, holdover := s.site.tb.holdover + 1 } } (count s.site .time 0 s.dev))))
        ∧ (5000000 ≤ s.site.tb.ticks → s.site.tb.holdoverLimit ≤ s.site.tb.holdover + 1 →
          ∃ d, exec .referencePulse s = .next ((s.setTb { tb with disc := .expired, outliers := 0, holdover := 0 }).setDev d)))

/-- In UNSET a pulse that consumes a label sets the absolute second and starts ACQUIRING, and an outlier without a label aligns plainly,
whatever its phase error. In the other states a label that names the second the pulse would give changes nothing, and one that differs
steps site time to it and gives ACQUIRING. In LOCKED or HOLDOVER the third outlier in a row aligns as a step, and the first two only
count; in ACQUIRING an outlier steps, and in EXPIRED any pulse steps with the reference PRESENT and none acts with it ABSENT. A step
latches TIME_STEP and leaves all counts at 0. A step that ends trust in SFN_STRICT flushes the release buffer: its frames' slots are freed
and each is counted as NO_TIME, the item in service and the gap frames are gone, and the last admitted due and the last released are kept
(R54 to R56, R58 to R60, R63, R74, R83). A good pulse without a label in the other states stands in GoodPulseAligns. That an item waiting
at a loss of trust counts nothing and does not leave at its due instant, on which the counters and the last released rest, is entry 10;
the round of the seconds count, unchanged at a label and left open at an outlier in UNSET, is entry 5; and that the conditions an event
changes show together is entry 24. -/
def Obligations.LabelsAndOutliers : Prop :=
  ∀ s : State, s.site.tb.ticks < 10000000 →
    let secs := if s.site.tb.ticks < 5000000 then s.site.tb.secs else s.site.tb.secs + 1
    let outlier := (s.site.tb.ticks < 5000000 → s.site.tb.lockWindow < s.site.tb.ticks)
      ∧ (5000000 ≤ s.site.tb.ticks → s.site.tb.lockWindow < 10000000 - s.site.tb.ticks)
    let stepped := fun (t : State) (l : BitVec 32) =>
      exec .referencePulse s = .next t ∧ t.site.tb.disc = .acquiring ∧ t.site.tb.good = 0 ∧ t.site.tb.outliers = 0
        ∧ t.site.tb.holdover = 0 ∧ t.site.tb.ticks = 0 ∧ t.site.tb.secs = l ∧ t.site.tb.label = none ∧ t.dev.latched.getLsbD 11 = true
    let flushed := fun t : State =>
      t.dev.em.item = none ∧ t.dev.em.gaps = [] ∧ t.dev.em.buffer = []
        ∧ t.dev.em.lastAdmitted = s.dev.em.lastAdmitted ∧ t.dev.em.lastReleased = s.dev.em.lastReleased
        ∧ (∀ i ∈ s.dev.em.buffer, t.dev.slots[i] = Record.empty)
        ∧ (∀ i due st, s.dev.em.item = some ⟨.real i, due, st⟩ → t.dev.slots[i] = Record.empty)
    (∀ l, s.site.tb.disc = .unset → s.site.tb.label = some l →
      ∃ d, exec .referencePulse s = .next ((s.setTb
          { s.site.tb with secs := l, ticks := 0, label := none, pulseSeen := true, disc := .acquiring, good := 0, outliers := 0,
                           holdover := 0 }).setDev d)
        ∧ d.em = s.dev.em ∧ d.slots = s.dev.slots)
    ∧ (s.site.tb.label = none → s.site.tb.disc = .unset → outlier →
      ∃ era, let tb := { s.site.tb with secs := secs, ticks := 0, pulseSeen := true, era := era }
        exec .referencePulse s = .next ((s.setTb tb).setDev (refresh { s.site with tb := tb } (count s.site .time 1 s.dev))))
    ∧ (s.site.tb.label = none → (s.site.tb.disc = .locked ∨ s.site.tb.disc = .holdover) → outlier →
      (s.site.tb.outliers < 2 →
        ∃ d, exec .referencePulse s = .next ((s.setTb
          { s.site.tb with pulseSeen := true, outliers := s.site.tb.outliers + 1 }).setDev d) ∧ d.em = s.dev.em)
      ∧ (s.site.tb.outliers = 2 →
        ∃ t, stepped t secs ∧ (s.site.timing.mode = .sfnStrict → flushed t
          ∧ ((∀ i ∈ s.dev.splice.queue, i ∈ s.dev.em.buffer) →
            t.dev.counters = (s.dev.em.buffer.foldl (fun d _ => count s.site .frameDecided 4 d)
              (count s.site .time 3 (count s.site .time 1 s.dev))).counters))))
    ∧ (s.site.tb.label = none → s.site.tb.disc = .acquiring → outlier → s.site.tb.outliers = 0 → s.site.tb.holdover = 0 →
      ∃ t, stepped t secs)
    ∧ (s.site.tb.label = none → s.site.tb.disc = .expired →
      (s.site.tb.present = true → ∃ t, stepped t secs)
      ∧ (s.site.tb.present = false → outlier →
        exec .referencePulse s = .next ((s.setTb { s.site.tb with pulseSeen := true }).setDev
          (refresh s.site (count s.site .time 1 s.dev))))
      ∧ (s.site.tb.present = false → ¬ outlier →
        exec .referencePulse s = .next ((s.setTb { s.site.tb with pulseSeen := true }).setDev
          (refresh s.site (count s.site .time 0 s.dev)))))
    ∧ (∀ l, s.site.tb.disc ≠ .unset → s.site.tb.label = some l →
      (l = secs → exec .referencePulse s = exec .referencePulse (s.setTb { s.site.tb with label := none }))
      ∧ (l ≠ secs → ∃ t, stepped t l
        ∧ (s.site.timing.mode = .sfnStrict → s.site.tb.disc = .locked ∨ s.site.tb.disc = .holdover → flushed t)))

/-- The missing-pulse check clears the pulse-seen flag; a second without a pulse is counted and moves LOCKED to HOLDOVER with holdover
seconds at 0. Reference loss moves LOCKED to HOLDOVER too, and loss and return set the presence (R50, R53, R56). A second boundary wraps T
and raises S by one, modulo 2^32; in HOLDOVER it counts a holdover second, and the one that reaches the limit makes the state EXPIRED
(R49, R57). The round of the seconds count, left open here, is the model's (entry 5). -/
def Obligations.PulseChecksAndBoundaries : Prop :=
  (∀ s : State,
      (s.site.tb.checkDue = true → s.site.tb.pulseSeen = true →
        ∃ x, x = { s.site with tb := { s.site.tb with checkDue := false, pulseSeen := false } }
          ∧ exec .missingPulseCheck s = .next ((s.setSite x).setDev (refresh x s.dev)))
      ∧ (s.site.tb.checkDue = true → s.site.tb.pulseSeen = false → s.site.tb.disc = .locked →
        ∃ x, x = { s.site with tb := { s.site.tb with checkDue := false, pulseSeen := false, disc := .holdover, holdover := 0 } }
          ∧ exec .missingPulseCheck s = .next ((s.setSite x).setDev (refresh x (count s.site .time 2 s.dev))))
      ∧ (s.site.tb.present = true → s.site.tb.disc = .locked →
        ∃ x, x = { s.site with tb := { s.site.tb with present := false, disc := .holdover, holdover := 0 } }
          ∧ exec .referenceLoss s = .next ((s.setSite x).setDev (refresh x s.dev)))
      ∧ (s.site.tb.present = false →
        ∃ x, x = { s.site with tb := { s.site.tb with present := true } }
          ∧ exec .referenceReturn s = .next ((s.setSite x).setDev (refresh x s.dev))))
  ∧ (∀ s : State, s.site.tb.ticks = 9999999 →
      ∃ era, (s.site.tb.disc ≠ .holdover →
          ∃ x, x = { s.site with tb := { s.site.tb with secs := s.site.tb.secs + 1, ticks := 0, era := era } }
            ∧ exec .secondBoundary s = .next ((s.setSite x).setDev (refresh x (elapse s.dev))))
        ∧ (s.site.tb.disc = .holdover → s.site.tb.holdover + 1 < s.site.tb.holdoverLimit →
          ∃ x, x = { s.site with tb :=
              { s.site.tb with secs := s.site.tb.secs + 1, ticks := 0, era := era, holdover := s.site.tb.holdover + 1 } }
            ∧ exec .secondBoundary s = .next ((s.setSite x).setDev (refresh x (elapse s.dev))))
        ∧ (s.site.tb.disc = .holdover → s.site.tb.holdoverLimit ≤ s.site.tb.holdover + 1 →
          ∃ t, exec .secondBoundary s = .next t ∧ t.site.tb.disc = .expired ∧ t.site.tb.holdover = 0 ∧ t.site.tb.ticks = 0
            ∧ t.site.tb.secs = s.site.tb.secs + 1))

/-! ### Release and emission -/

/-- A stamp is read as lying between 128 seconds before and 127 seconds after the current site second, and agrees with it modulo 256
(R68). The classes of admission in SFN_STRICT, in their order: NO_TIME without trusted time, EARLY above the horizon, LATE below the
guard, ORDER, and ADMITTED at and between the boundaries (R69). -/
def Obligations.AdmissionClasses : Prop :=
  (∀ s s8 : Nat, s8 < 256 →
      -128 ≤ stampSeconds s s8 - s ∧ stampSeconds s s8 - s ≤ 127 ∧ (stampSeconds s s8 - s8) % 256 = 0)
  ∧ (∀ (x : Site) (d : Device) (n : FrameNo) (stamp : Byte × Nat), x.timing.mode = .sfnStrict →
      let lead := leadOf x.tb (stampDue x stamp)
      (x.tb.trusted = false → classify x d n stamp = .noTime)
      ∧ (x.tb.trusted = true →
        ((x.timing.horizon : Int) < lead → classify x d n stamp = .early)
        ∧ (lead ≤ x.timing.horizon → lead < x.timing.guard → classify x d n stamp = .late)
        ∧ (lead ≤ x.timing.horizon → (x.timing.guard : Int) ≤ lead →
          (outOfOrder d n (stampDue x stamp) = true → classify x d n stamp = .order)
          ∧ (outOfOrder d n (stampDue x stamp) = false → classify x d n stamp = .admitted (stampDue x stamp)))))

/-- A frame alone in the buffer whose due instant has arrived, with no item in service and no splice work: in ON_AIR with a credit it
begins sending, taking the credit, and its marker goes to the output port; in MUTED and in STANDBY it is discarded, counted as MUTED_DROP
or as SENT, and its slot is freed. In every case it leaves the buffer and is the last released (R77, R78, R79, R81). A SPLICING frame is
late filled, which is counted: with a SPLICE burst granted for it, it waits for that burst, its drafts flagged; with none, every position
not yet written is to carry a null cell, its work ends, the break advances as if they had been written, and in ON_AIR without a credit it
waits (R80, R99, R150, R158). That the first position is asked for while the marker leaves is the model's pacing (entry 8), that late fill
is counted and flagged as the frame becomes the item in service is entry 9, and the mark of a late filled position is the model's (entry
6). -/
def Obligations.DueFrameIsTaken : Prop :=
  (∀ (slot : SlotNo) (due : Due) (s : State), s.dev.em.item = none → s.dev.em.gaps = [] → s.dev.em.buffer = [slot] →
    (s.dev.slots[slot]).due = some due → (s.dev.slots[slot]).state = .queued → (s.dev.slots[slot]).marks = [] →
    arrived s.site.tb due 0 = true →
    (outputMode s.site s.dev = .onAir → passed s.site.tb due s.site.timing.tolerance = false → 0 < s.dev.em.credits →
      ∃ t, exec .dueInstant s = .next t ∧ t.dev.em.item = some ⟨.real slot, due, .sending 0⟩
        ∧ t.dev.em.credits = s.dev.em.credits - 1 ∧ t.dev.em.buffer = []
        ∧ t.dev.em.output = s.dev.em.output ++ [sentMarker s.dev.slots[slot]]
        ∧ t.dev.em.lastReleased = some ⟨(s.dev.slots[slot]).frameNo, due⟩
        ∧ t.dev.slots = s.dev.slots.set slot { s.dev.slots[slot] with state := .emitting }
        ∧ t.dev.mem = s.dev.mem ∧ t.dev.sel = s.dev.sel ∧ t.site = s.site)
    ∧ (∀ sub, outputMode s.site s.dev = .muted ∧ sub = 3 ∨ outputMode s.site s.dev = .standby ∧ sub = 0 →
      ∃ t, exec .dueInstant s = .next t
        ∧ t.dev.counters =
          (sample s.site false (count s.site .emission sub { s.dev with em := { s.dev.em with buffer := [] } })).counters
        ∧ t.dev.em.item = none
        ∧ t.dev.em.credits = s.dev.em.credits ∧ t.dev.em.buffer = []
        ∧ t.dev.em.output = s.dev.em.output
        ∧ t.dev.em.lastReleased = some ⟨(s.dev.slots[slot]).frameNo, due⟩
        ∧ t.dev.slots = s.dev.slots.set slot Record.empty
        ∧ t.dev.mem = s.dev.mem ∧ t.dev.sel = s.dev.sel ∧ t.site = s.site))
  ∧ (∀ (slot : SlotNo) (due : Due) (s : State), s.dev.em.item = none → s.dev.em.gaps = [] → s.dev.em.buffer = [slot] →
      (s.dev.slots[slot]).due = some due → (s.dev.slots[slot]).state = .splicing → arrived s.site.tb due 0 = true →
      let r := s.dev.slots[slot]
      (∀ (pl : Fin 256) (p : ProgNo) (cell : Bytes), s.dev.arb.current = some ⟨.splice, .splice slot pl p cell, true⟩ →
        ∃ t, exec .dueInstant s = .next t
          ∧ t.dev.em = { s.dev.em with buffer := [], item := some ⟨.real slot, due, .filling⟩ }
          ∧ t.dev.slots = s.dev.slots.set slot { r with state := .emitting }
          ∧ t.dev.counters = (count s.site .emission 4 s.dev).counters
          ∧ t.dev.arb = s.dev.arb ∧ t.dev.splice = s.dev.splice ∧ t.dev.mem = s.dev.mem ∧ t.site = s.site
          ∧ ∀ q m b n y, q ∈ r.openProgs → r.markOf q = some m → getBreak q m.brk s.dev = some b → b.draft = some n →
            s.dev.asrun.drafts[n] = some y → t.dev.asrun.drafts[n] = some { y with lateFill := true })
      ∧ (∀ (m : Mark) (b : Break) (n : Nat) (left : List WorkItem), (∀ t, s.dev.arb.current = some t → t.target.slotOf ≠ some slot) →
        r.marks = [m] → r.cursor = some n → r.work.drop n = left → left ≠ [] → (∀ w ∈ left, w.prog = m.prog) →
        (s.dev.splice.progs[m.prog]).active = some b → b.id = m.brk → (s.dev.splice.progs[m.prog]).ended = [] →
        (s.dev.splice.progs[m.prog]).closed = [] → s.dev.splice.queue = [slot] →
        outputMode s.site s.dev = .onAir → passed s.site.tb due s.site.timing.tolerance = false → s.dev.em.credits = 0 →
        (b.source = .null ∨ b.source = .list ∧ ∃ clip, b.playing = some clip ∧ b.clipPos + left.length < clipLength clip s.dev) →
        ∃ t, exec .dueInstant s = .next t
          ∧ t.dev.em = { s.dev.em with buffer := [], item := some ⟨.real slot, due, .waiting⟩ }
          ∧ t.dev.slots = s.dev.slots.set slot
            { r with
              state := .emitting, work := r.work.take n
              headers := r.headers.map (fun h =>
                if left.any (fun w => w.pos == h.pos) then ⟨h.pos, 4094, .null, none, true⟩ else h) }
          ∧ t.dev.counters = (count s.site .emission 4 s.dev).counters
          ∧ t.dev.splice.queue = [] ∧ t.dev.cat = s.dev.cat ∧ t.dev.mem = s.dev.mem ∧ t.site = s.site
          ∧ (t.dev.splice.progs[m.prog]).active = some (if b.source = .null then { b with work := b.work - 1 }
            else { b with
              work := b.work - 1
              clipPos := b.clipPos + left.length
              items := updLast (fun i => { i with played := i.played + left.length }) b.items })))

/-- A credit-return pulse adds a credit below the initial figure, and is only counted as CREDIT_EXCESS at it, whether no item is in
service or one is being sent; an item that waits within D + C starts its sending at once and the credit is taken: its marker goes to the
output port, a real frame is counted and sampled, and it is the last released and, when real, the gap reference. In SFN_STRICT an item
still waiting at D + C is dropped, counted as NO_CREDIT and, when real, sampled, its slot freed; a credit that comes after D + C finds it
dropped. In FREE_RUN it waits without limit (R77, R78, R81, R82, R85). Stated with no other item due yet. The count of the next candidate
of the gap reference is the model's (entry 6). -/
def Obligations.CreditsAndWaits : Prop :=
  ∀ s : State,
    let waits := fun (k : ItemKind) (due : Due) =>
      s.dev.em.item = some ⟨k, due, .waiting⟩ ∧ (s.site.timing.mode = .freeRun ∨ passed s.site.tb due s.site.timing.tolerance = false)
    let nothingDue := (∀ g gs, s.dev.em.gaps = g :: gs → arrived s.site.tb g.due 0 = false)
      ∧ ∀ i rest due, s.dev.em.buffer = i :: rest → (s.dev.slots[i]).due = some due → arrived s.site.tb due 0 = false
    let dropped := fun (k : ItemKind) (due : Due) (t : State) (credits : Nat) =>
      match k with
      | .gap g => t.dev.em = { s.dev.em with item := none, lastReleased := some ⟨g.number, due⟩, credits := credits }
          ∧ t.dev.slots = s.dev.slots ∧ t.dev.counters = (count s.site .emission 2 s.dev).counters ∧ t.site = s.site
      | .real i => ∃ next, t.dev.em =
            { s.dev.em with
              item := none, lastReleased := some ⟨(s.dev.slots[i]).frameNo, due⟩
              gapRef := some ⟨(s.dev.slots[i]).frameNo, due, next⟩, credits := credits }
          ∧ t.dev.slots = s.dev.slots.set i Record.empty
          ∧ t.dev.counters = (sample s.site false (count s.site .emission 2 s.dev)).counters ∧ t.dev.mem = s.dev.mem ∧ t.site = s.site
    ((∀ k due, s.dev.em.item ≠ some ⟨k, due, .waiting⟩) → s.site.timing.credits ≤ s.dev.em.credits →
      exec .creditReturn s = .next (s.setDev (count s.site .emission 5 s.dev)))
    ∧ ((∀ k due, s.dev.em.item ≠ some ⟨k, due, .waiting⟩) → s.dev.em.credits < s.site.timing.credits →
      exec .creditReturn s = .next (s.setDev { s.dev with em := { s.dev.em with credits := s.dev.em.credits + 1 } }))
    ∧ (∀ g due, s.dev.em.credits < s.site.timing.credits → waits (.gap g) due →
      exec .creditReturn s = .next (s.setDev { s.dev with em :=
        { s.dev.em with
          item := some ⟨.gap g, due, .sending 0⟩, lastReleased := some ⟨g.number, due⟩
          output := s.dev.em.output ++ [g.marker] } }))
    ∧ (∀ i due, s.dev.em.credits < s.site.timing.credits → waits (.real i) due →
      ∃ t next, exec .creditReturn s = .next t
        ∧ t.dev.em = { s.dev.em with
            item := some ⟨.real i, due, .sending 0⟩, lastReleased := some ⟨(s.dev.slots[i]).frameNo, due⟩
            gapRef := some ⟨(s.dev.slots[i]).frameNo, due, next⟩
            output := s.dev.em.output ++ [sentMarker s.dev.slots[i]] }
        ∧ (s.dev.arb.current.isSome = true →
          t.dev.counters = (sample s.site true (count s.site .emission 0 s.dev)).counters)
        ∧ t.dev.slots = s.dev.slots ∧ t.dev.mem = s.dev.mem ∧ t.dev.sel = s.dev.sel ∧ t.site = s.site)
    ∧ (∀ k due, s.site.timing.mode = .sfnStrict → s.dev.em.item = some ⟨k, due, .waiting⟩ → nothingDue →
      (arrived s.site.tb due s.site.timing.tolerance = true →
        ∃ t, exec .creditWaitExpiry s = .next t ∧ dropped k due t s.dev.em.credits)
      ∧ (passed s.site.tb due s.site.timing.tolerance = true → s.dev.em.credits < s.site.timing.credits →
        ∃ t, exec .creditReturn s = .next t ∧ dropped k due t (s.dev.em.credits + 1)))
    ∧ (s.site.timing.mode = .freeRun → exec .creditWaitExpiry s = .next s)

/-- At a candidate instant with the head further on and later, and the number after the last released, a gap frame is made: counted as
GAP, and, with an item in service, joined to the waiting gap frames with its number, due instant and marker; where the number is the
head's or past it, none is made. A real frame taken from the buffer at the candidate instant itself, and in service without having been
sent, is still the head there, due no later, and none is made (R6, R81). The count of the next candidate is the model's (entry 6). -/
def Obligations.GapFrameIsMade : Prop :=
  (∀ (g : GapRef) (l : Released) (slot : SlotNo) (rest : List SlotNo) (headDue : Due) (item : Item) (s : State),
    s.dev.em.gapRef = some g → s.dev.em.lastReleased = some l → s.dev.em.buffer = slot :: rest →
    (s.dev.slots[slot]).due = some headDue → s.dev.em.item = some item → s.site.timing.period ≠ 0 →
    let at_ : Int := (g.next * s.site.timing.period : Nat)
    let n := g.number + BitVec.ofNat 24 g.next
    let next := some { g with next := g.next + 1 }
    (∀ i due st, item = ⟨.real i, due, st⟩ → (∀ k, st ≠ .sending k) → due.unwrapped < g.due.unwrapped + at_) →
    arrived s.site.tb g.due at_ = true →
    (g.next < ((s.dev.slots[slot]).frameNo - g.number).toNat → g.due.unwrapped + at_ < headDue.unwrapped →
      isAfter n l.number = true →
      ∃ d, exec .gapCandidateInstant s = .next (s.setDev d) ∧ d.em =
          { s.dev.em with
            gapRef := next
            gaps := s.dev.em.gaps ++ [⟨n, ⟨g.due.total + at_, g.due.era⟩,
              gapMarker n (g.due.total + at_ - s.site.timing.offset + s.site.timing.latency)⟩] }
        ∧ d.counters = (count s.site .emission 1 s.dev).counters ∧ d.slots = s.dev.slots)
    ∧ (((s.dev.slots[slot]).frameNo - g.number).toNat ≤ g.next →
      exec .gapCandidateInstant s = .next (s.setDev { s.dev with em := { s.dev.em with gapRef := next } })))
  ∧ (∀ (g : GapRef) (i : SlotNo) (due : Due) (st : Stage) (s : State), s.dev.em.gapRef = some g →
      s.dev.em.item = some ⟨.real i, due, st⟩ → st = .waiting ∨ st = .filling → s.site.timing.period ≠ 0 →
      due.unwrapped = g.due.unwrapped + (g.next * s.site.timing.period : Nat) →
      arrived s.site.tb g.due (g.next * s.site.timing.period : Nat) = true →
      exec .gapCandidateInstant s = .next (s.setDev { s.dev with em := { s.dev.em with gapRef := some { g with next := g.next + 1 } } }))

/-- A completed EMIT burst puts its cell on a free port: the payload as stored, and the header formed afresh with the SID and qualifier of
the position's header list entry, a PAYLOAD cell on a restamped SID taking the SID's counter and fresh flag; a position that late fill
left unwritten is a null cell. A discarded burst sends nothing. When a cell has left and positions remain, the next one is asked for; the
end of the last cell of a frame frees its slot and ends the item in service, and the end of a gap frame's marker ends it (R3, R79, R80,
R83, R84, R96). Stated with no other item due yet. The address read is the model's layout (entry 14), and how many positions are already
on the port, and when the next is asked for, is the model's pacing (entry 8). -/
def Obligations.CellsAreSent : Prop :=
  ∀ s : State,
    let nothingDue := (∀ g gs, s.dev.em.gaps = g :: gs → arrived s.site.tb g.due 0 = false)
      ∧ ∀ i rest due, s.dev.em.buffer = i :: rest → (s.dev.slots[i]).due = some due → arrived s.site.tb due 0 = false
    (∀ (slot : SlotNo) (pl : Fin 256) (due : Due) (n : Nat) (e : HeaderEntry) (i : Fin 4095),
      s.dev.arb.current = some ⟨.emit, .slot slot pl, true⟩ →
      s.dev.em.item = some ⟨.real slot, due, .sending n⟩ → s.dev.em.output = [] →
      (s.dev.slots[slot]).headers.find? (fun e => e.pos == pl.val + 1) = some e →
      (∀ o ∈ (s.dev.slots[slot]).headers, o.pos = pl.val + 1 → o.lateNull = e.lateNull) → e.sid.toNat = i.val →
      let cell := memReadRun s.dev.mem ((slot.val * 256 + pl.val) * 176) 176
      let h : Header := { parseHeader cell with sid := e.sid, qual := e.qual }
      let sent := fun (c : Bytes) (restamp : Vector Restamp 4095) =>
        exec .emitBurstComplete s = .next (s.setDev { endBurst s.site s.dev with em :=
          { s.dev.em with output := [c], held := none, item := some ⟨.real slot, due, .sending (n + 1)⟩, restamp := restamp } })
      (e.lateNull = true → sent (nullCell (pl.val + 1)) s.dev.em.restamp)
      ∧ (e.lateNull = false →
        (e.qual = .payload ∧ restamped s.site e.sid = true →
          sent (formHeader { h with cont := (s.dev.em.restamp[i]).counter, disc := (s.dev.em.restamp[i]).fresh } ++ payloadOf cell)
            (s.dev.em.restamp.set i ⟨(s.dev.em.restamp[i]).counter + 1, false⟩))
        ∧ (e.qual ≠ .payload ∨ restamped s.site e.sid = false → sent (formHeader h ++ payloadOf cell) s.dev.em.restamp)))
    ∧ (∀ t : Target, s.dev.arb.current = some ⟨.emit, t, false⟩ → (∃ i pl, t = .slot i pl) → s.dev.em.item = none →
      exec .emitBurstComplete s = .next (s.setDev (endBurst s.site s.dev)))
    ∧ (∀ (slot : SlotNo) (pl : Fin 256) (due : Due) (c : Bytes), s.dev.em.item = some ⟨.real slot, due, .sending pl.val⟩ →
      s.dev.em.output = [c] → s.dev.em.held = none → pl.val < (s.dev.slots[slot]).declared →
      exec .outputCellSent s = .next (s.setDev (ask s.site .emit (.slot slot pl) { s.dev with em := { s.dev.em with output := [] } })))
    ∧ (∀ (slot : SlotNo) (due : Due) (n : Nat) (c : Bytes), s.dev.em.item = some ⟨.real slot, due, .sending n⟩ →
      s.dev.em.output = [c] → s.dev.em.held = none → (s.dev.slots[slot]).declared = n → (s.dev.slots[slot]).marks = [] → nothingDue →
      ∃ t, exec .outputCellSent s = .next t ∧ t.dev.em = { s.dev.em with item := none, output := [] }
        ∧ t.dev.slots = s.dev.slots.set slot Record.empty ∧ t.dev.mem = s.dev.mem)
    ∧ (∀ (g : GapFrame) (due : Due) (n : Nat) (c : Bytes), s.dev.em.item = some ⟨.gap g, due, .sending n⟩ → s.dev.em.output = [c] →
      s.dev.em.held = none → nothingDue →
      exec .outputCellSent s = .next (s.setDev { s.dev with em := { s.dev.em with item := none, output := [] } }))

/-- A completed LOAD burst: the cell is in its block position, cells loaded goes up by one, the digest takes the cell in, and the entry
leaves the FIFO (R92, R109). The burst that brings cells loaded to the clip's length finishes the load: a digest that differs from the
clip's notes DIGEST, the record is CORRUPT with any damage noted and READY with none, its load context is freed, and CLIP_DONE is latched
(R112). A burst whose load was aborted puts its cell in its block position, and its entry leaves the FIFO uncounted (R94, R113). The
address of a block position is the model's layout (entry 14); the mark of an entry whose load was aborted is the model's (entry 6). That
the arbiter decides before the next entry asks is entry 7. -/
def Obligations.LoadBurstWrites : Prop :=
  ∀ (b : BlockNo) (i : Fin 4096) (e : LoadEntry) (rest : List LoadEntry) (s : State), s.dev.cat.fifo = e :: rest →
    let mem := memWriteRun s.dev.mem (1802240 + (b.val * 4096 + i.val) * 169) e.cell
    (∀ (y : LoadCtx) (place : PlaceNo) (c : ClipRecord), s.dev.arb.current = some ⟨.load, .block b i e.cell, true⟩ →
      s.dev.cat.ctxs[e.ctx] = some y → findClip y.clip s.dev = some place → s.dev.cat.places[place] = some c → c.loaded + 1 < c.length →
      exec .loadBurstComplete s = .next (s.setDev (askLoad s.site (endBurst s.site
        { s.dev with
          mem := mem
          cat := { s.dev.cat with
            fifo := rest
            ctxs := s.dev.cat.ctxs.set e.ctx (some { y with digest := frameCheckMore y.digest e.cell })
            places := s.dev.cat.places.set place (some { c with loaded := c.loaded + 1 }) } }))))
    ∧ (∀ (y : LoadCtx) (place : PlaceNo) (c : ClipRecord), s.dev.arb.current = some ⟨.load, .block b i e.cell, true⟩ →
      s.dev.cat.ctxs[e.ctx] = some y → findClip y.clip s.dev = some place → s.dev.cat.places[place] = some c → c.loaded + 1 = c.length →
      let bad := c.damDigest || frameCheckMore y.digest e.cell != c.digest
      exec .loadBurstComplete s = .next (s.setDev (askLoad s.site (endBurst s.site (refresh s.site
        { s.dev with
          mem := mem
          latched := s.dev.latched ||| 0x0200
          cat := { s.dev.cat with
            fifo := rest
            ctxs := s.dev.cat.ctxs.set e.ctx none
            places := s.dev.cat.places.set place (some
              { c with
                loaded := c.loaded + 1
                damDigest := bad
                ctx := none
                state := if bad || c.damContinuity || c.damFifo then .corrupt else .ready }) } })))))
    ∧ (s.dev.arb.current = some ⟨.load, .block b i e.cell, false⟩ → e.live = false →
      exec .loadBurstComplete s = .next (s.setDev (askLoad s.site (endBurst s.site
        { s.dev with mem := mem, cat := { s.dev.cat with fifo := rest } }))))

/-- A completed SPLICE burst for a frame with further positions of the programme to go (R147 to R149): a blank break, or one without a
source, has a null cell written and counts NULL_FILL; a clip cell gives a new header with the SID of the component it names and its
payload, counted as PLAYED from a list entry and as FILLER from the filler, and a null cell where that component has no SID. The stored
header's continuity count 0 and clear discontinuity flag are entry 20. The header list entry follows the cell, the source moves on by one
cell, the cursor goes up by one, and then the arbiter decides and the next position asks, or the late fill that waited for this burst ends
the frame's work and the frame is handled (R80, R99). A discarded burst puts its cell in its position and does nothing else (R90). A
source starts with its list's head (R128), and at the last cell of an entry's clip it goes on with the entry after it, in ring order
(R129): a RETIRING entry the break does not hold is passed over; another it does not hold becomes IN_USE with the break as holder, and its
clip, where READY, is drawn from cell 0 with its play count raised, and where not, the next entry is taken at once; an entry the break
holds, or the end of the ring, brings the filler where its clip is READY, and null cells where not (R149). Addresses of positions are the
model's layout (entry 14), a break's own number its own (entry 6), and that the cell is chosen as the burst completes is entry 9. That the
arbiter decides before what follows is entry 7, and that the next frame asks before the frame in service does is entry 28. -/
def Obligations.SpliceBurstWrites : Prop :=
  (∀ (slot : SlotNo) (pl : Fin 256) (p : ProgNo) (asked : Bytes) (next : Device → Device) (s : State),
    ((∀ due, s.dev.em.item ≠ some ⟨.real slot, due, .filling⟩) ∧ next = askSplice s.site
      ∨ ∃ due, s.dev.em.item = some ⟨.real slot, due, .filling⟩
        ∧ next = fun d => serveItems s.site (handleFrame s.site slot due (endLateFill s.site slot d))) →
    (s.dev.arb.current = some ⟨.splice, .splice slot pl p asked, false⟩ →
      exec .spliceBurstComplete s = .next (s.setDev (next (endBurst s.site
        { s.dev with mem := memWriteRun s.dev.mem ((slot.val * 256 + pl.val) * 176) asked }))))
    ∧ ∀ (m : Mark) (b : Break) (n : Nat) (w : WorkItem) (more : List WorkItem),
    s.dev.arb.current = some ⟨.splice, .splice slot pl p asked, true⟩ → (s.dev.slots[slot]).marks = [m] → m.prog = p →
    (s.dev.splice.progs[p]).active = some b → b.id = m.brk → (s.dev.splice.progs[p]).ended = [] → (s.dev.splice.progs[p]).closed = [] →
    (s.dev.slots[slot]).cursor = some n → (s.dev.slots[slot]).work.drop (n + 1) = w :: more → w.prog = p →
    let stored := fun (d : Device) (cell : Bytes) (e : HeaderEntry) =>
      d.mem = memWriteRun s.dev.mem ((slot.val * 256 + pl.val) * 176) cell
        ∧ d.slots = s.dev.slots.set slot
            { s.dev.slots[slot] with
              cursor := some (n + 1)
              headers := (s.dev.slots[slot]).headers.map (fun h => if h.pos == pl.val + 1 then e else h) }
        ∧ d.em = s.dev.em ∧ d.sel = s.dev.sel
    let written := fun (d : Device) (cell : Bytes) (e : HeaderEntry) =>
      stored d cell e ∧ d.cat = s.dev.cat ∧ d.lists = s.dev.lists
    (b.source = .null →
      ∃ d, exec .spliceBurstComplete s = .next (s.setDev (next (endBurst s.site d)))
        ∧ written d (nullCell (pl.val + 1)) ⟨pl.val + 1, 4094, .null, none, false⟩
        ∧ d.counters = (count s.site .clipCell 3 s.dev).counters ∧ d.splice = s.dev.splice)
    ∧ (∀ (clip : ClipId) (c : Fin 8) (sid : Sid), b.source = .list → b.playing = some clip → b.clipPos + 1 < clipLength clip s.dev →
      byteAt (readClipCell clip b.clipPos s.dev) 0 = BitVec.ofNat 8 c.val → (s.site.progs[p]).comps[c] = some sid →
      ∃ d, exec .spliceBurstComplete s = .next (s.setDev (next (endBurst s.site d)))
        ∧ written d
            (formHeader ⟨sid, .payload, false, 0, 0, BitVec.ofNat 16 (pl.val + 1)⟩ ++ (readClipCell clip b.clipPos s.dev).drop 1)
            ⟨pl.val + 1, sid, .payload, some (p, c), false⟩
        ∧ d.counters = (count s.site .clipCell 0 s.dev).counters
        ∧ d.splice = { s.dev.splice with
            progs := s.dev.splice.progs.set p
              { s.dev.splice.progs[p] with
                active := some
                  { b with
                    clipPos := b.clipPos + 1
                    items := updLast (fun i => { i with played := i.played + 1 }) b.items } } })
    ∧ (∀ (clip : ClipId), b.source ≠ .null → b.playing = some clip →
      let cell := readClipCell clip b.clipPos s.dev
      let advanced := fun d : Device =>
        d.splice = { s.dev.splice with
            progs := s.dev.splice.progs.set p { s.dev.splice.progs[p] with active := some (advanceSource p b s.dev).1 } }
          ∧ d.cat = (advanceSource p b s.dev).2.cat ∧ d.lists = (advanceSource p b s.dev).2.lists
          ∧ d.asrun = (advanceSource p b s.dev).2.asrun
      (∀ (c : Fin 8) (sid : Sid), byteAt cell 0 = BitVec.ofNat 8 c.val → (s.site.progs[p]).comps[c] = some sid →
        ∃ d, exec .spliceBurstComplete s = .next (s.setDev (next (endBurst s.site d)))
          ∧ stored d (formHeader ⟨sid, .payload, false, 0, 0, BitVec.ofNat 16 (pl.val + 1)⟩ ++ cell.drop 1)
              ⟨pl.val + 1, sid, .payload, some (p, c), false⟩
          ∧ d.counters = (count s.site .clipCell (if b.source = .filler then 2 else 0) s.dev).counters ∧ advanced d)
      ∧ ((∀ c : Fin 8, byteAt cell 0 = BitVec.ofNat 8 c.val → (s.site.progs[p]).comps[c] = none) →
        ∃ d, exec .spliceBurstComplete s = .next (s.setDev (next (endBurst s.site d)))
          ∧ stored d (nullCell (pl.val + 1)) ⟨pl.val + 1, 4094, .null, none, false⟩
          ∧ d.counters = (count s.site .clipCell 1 s.dev).counters ∧ advanced d)))
  ∧ ∀ (p : ProgNo) (b : Break) (d : Device),
    let filled := fun (b : Break) (d : Device) (r : Break × Device) =>
      ((∀ f c, b.filler = some f → clipRecord f d = some c → c.state ≠ .ready) →
        r = ({ b with source := .null, playing := none }, d))
      ∧ (∀ (f : ClipId) (place : PlaceNo) (c : ClipRecord), b.filler = some f → findClip f d = some place →
        d.cat.places[place] = some c → c.state = .ready →
        r = ({ b with source := .filler, playing := some f, clipPos := 0 },
          { d with
            cat := { d.cat with places := d.cat.places.set place (some { c with play := c.play + 1 }) }
            asrun := match b.draft with
              | none => d.asrun
              | some n => { d.asrun with
                  drafts := d.asrun.drafts.set n (d.asrun.drafts[n].map (fun y => { y with filler := true })) } }))
    (b.blank = false →
      (∀ l, b.list = some l → beginSource p b d = startEntries p d.lists.rings[l] b d)
      ∧ (b.list = none → filled b d (beginSource p b d)))
    ∧ (∀ (clip : ClipId) (place : PlaceNo) (c : ClipRecord), b.source = .list → b.playing = some clip → findClip clip d = some place →
      d.cat.places[place] = some c →
      (b.clipPos + 1 < c.length → advanceSource p b d =
        ({ b with clipPos := b.clipPos + 1, items := updLast (fun i => { i with played := i.played + 1 }) b.items }, d))
      ∧ (∀ (l : ListNo) (e : EntryNo) (pre post : List EntryNo), c.length ≤ b.clipPos + 1 → b.list = some l → b.current = some e →
        d.lists.rings[l] = pre ++ e :: post → e ∉ pre →
        advanceSource p b d = startEntries p (post ++ pre ++ [e])
          { b with
            clipPos := b.clipPos + 1
            playing := none
            items := updLast (fun i => { i with played := i.played + 1, completed := true }) b.items }
          { d with cat := { d.cat with places := d.cat.places.set place (some { c with play := c.play - 1 }) } }))
    ∧ (∀ clip, b.source = .filler → b.playing = some clip →
      advanceSource p b d = ({ b with clipPos := if clipLength clip d ≤ b.clipPos + 1 then 0 else b.clipPos + 1 }, d))
    ∧ (∀ skipped : List EntryNo, (∀ e ∈ skipped, ∃ y, d.lists.pool[e] = some y ∧ y.state = .retiring ∧ y.heldBy b.id = false) →
      filled b d (startEntries p skipped b d)
      ∧ ∀ (o : EntryNo) (rest : List EntryNo) (z : RingEntry), d.lists.pool[o] = some z →
        (z.heldBy b.id = true → filled b d (startEntries p (skipped ++ o :: rest) b d))
        ∧ (z.heldBy b.id = false → z.state ≠ .retiring →
          let taken := { b with start := b.start.or (some o), current := some o, items := b.items ++ [⟨z.clip, 0, false⟩] }
          let held := { d with lists := { d.lists with
            pool := d.lists.pool.set o (some { z with state := .inUse, holders := z.holders ++ [⟨p, b.id⟩] }) } }
          (∀ (place : PlaceNo) (c : ClipRecord), findClip z.clip d = some place → d.cat.places[place] = some c → c.state = .ready →
            startEntries p (skipped ++ o :: rest) b d =
              ({ taken with source := .list, playing := some z.clip, clipPos := 0 },
                { held with cat := { d.cat with places := d.cat.places.set place (some { c with play := c.play + 1 }) } }))
          ∧ ((∀ c, clipRecord z.clip d = some c → c.state ≠ .ready) →
            startEntries p (skipped ++ o :: rest) b d = startEntries p rest taken held)))

/-- An admitted frame in the range of a programme's active break and before its last frame is marked for the break: the mark says whether
the frame has a position to replace, and the break counts the frame as outstanding and, with such a position, as work. The last frame of
the range ends it, and then the break is active no more (R135, R144, R145). A head cue that covers the frame starts a break, which opens a
draft and marks the frame (R143, R157); a list break starts its list's head entry, which becomes IN_USE with the break in its holder set,
and a READY clip is drawn from its first cell with its play count raised (R128). The close of a break gives its draft the cause, the
frames never marked and the first 16 clip items, frees its holds and lowers its play count (R146, R159). The list's head becomes the last
started entry where that was not played to its end, and the entry after it where it was (R130); the break's holds are then released: an
entry it alone held becomes IDLE, or is unlinked where it was RETIRING, with its clip's use count lowered (R131); a final fate counts the
frame in its draft (R158); and whichever of the two comes last appends the draft, with the outcome of R160, to a queue with room. The
break's own number and its list of marked numbers are the model's (entry 6), and so is the count of the frames never marked (entry
12). -/
def Obligations.AdmittedFrameIsMarked : Prop :=
  (∀ (x : Site) (slot : SlotNo) (k : FrameNo) (d : Device) (p : ProgNo) (b : Break), (x.progs[p]).enabled = true →
    (d.splice.progs[p]).queue = [] → (d.splice.progs[p]).active = some b → inRange k b.out b.endF = true →
    let has := (d.slots[slot]).headers.any (fun h => h.qual == .payload && h.owner.any (fun o => o.1 == p))
    (k ≠ b.endF - 1 → (d.splice.progs[p]).ended = [] → (d.splice.progs[p]).closed = [] →
      ((programmeTurn x slot k d p).splice.progs[p]).active = some
          { b with
            lastMarked := some k
            marked := if b.marked.contains k then b.marked else b.marked ++ [k]
            outstanding := b.outstanding + 1
            work := if has then b.work + 1 else b.work }
        ∧ (programmeTurn x slot k d p).slots = d.slots.set slot
            { d.slots[slot] with marks := (d.slots[slot]).marks ++ [⟨p, b.id, has⟩] }
        ∧ (programmeTurn x slot k d p).mem = d.mem ∧ (programmeTurn x slot k d p).em = d.em)
    ∧ (k = b.endF - 1 → ((programmeTurn x slot k d p).splice.progs[p]).active = none))
  ∧ (∀ (x : Site) (slot : SlotNo) (k : FrameNo) (d : Device) (p : ProgNo) (c : Cue) (n : DraftNo), (x.progs[p]).enabled = true →
      d.splice.progs[p] = ⟨[c], none, [], [], (d.splice.progs[p]).expired⟩ → c.decision = .blank ∨ c.decision = .armed none none →
      1 ≤ c.length → c.length ≤ 65535 → inRange k c.out c.endF = true → k ≠ c.endF - 1 → vfind d.asrun.drafts Option.isNone = some n →
      let t := programmeTurn x slot k d p
      ∃ b, t.splice.progs[p] = ⟨[], some b, [], [], (d.splice.progs[p]).expired⟩
        ∧ b.cue = c.id ∧ b.out = c.out ∧ b.endF = c.endF ∧ b.slotCode = c.slotCode ∧ b.confirm = c.confirm ∧ b.cause = c.cause
        ∧ (b.blank = true ↔ c.decision = .blank) ∧ b.source = .null ∧ b.start = none ∧ b.items = [] ∧ b.tally = false ∧ b.draft = some n
        ∧ b.lastMarked = some k ∧ b.outstanding = 1
        ∧ (t.slots[slot]).marks = (d.slots[slot]).marks ++ [⟨p, b.id, 0 < b.work⟩]
        ∧ t.asrun = { d.asrun with drafts := d.asrun.drafts.set n (some
            { prog := p, cue := c.id, slotCode := c.slotCode, confirm := c.confirm, blank := b.blank, cause := c.cause
              first := none, last := none, emitted := 0, lost := 0, outstanding := 1, standby := false, muted := false
              lateFill := false, filler := false, moreClips := false, closed := false, items := [] }) })
  ∧ (∀ (x : Site) (slot : SlotNo) (k : FrameNo) (d : Device) (p : ProgNo) (c : Cue) (n : DraftNo) (l : ListNo) (f : Option ClipId)
      (o : EntryNo) (rest : List EntryNo) (z : RingEntry) (place : PlaceNo) (r : ClipRecord), (x.progs[p]).enabled = true →
      d.splice.progs[p] = ⟨[c], none, [], [], (d.splice.progs[p]).expired⟩ → c.decision = .armed (some l) f →
      1 ≤ c.length → c.length ≤ 65535 → inRange k c.out c.endF = true → k ≠ c.endF - 1 → vfind d.asrun.drafts Option.isNone = some n →
      d.lists.rings[l] = o :: rest → d.lists.pool[o] = some z → z.state ≠ .retiring → z.heldBy d.splice.nextBreak = false →
      findClip z.clip d = some place → d.cat.places[place] = some r → r.state = .ready →
      let t := programmeTurn x slot k d p
      ∃ b, t.splice.progs[p] = ⟨[], some b, [], [], (d.splice.progs[p]).expired⟩
        ∧ b.id = d.splice.nextBreak ∧ b.blank = false ∧ b.list = some l ∧ b.filler = f ∧ b.draft = some n
        ∧ b.source = .list ∧ b.start = some o ∧ b.current = some o ∧ b.playing = some z.clip ∧ b.clipPos = 0
        ∧ b.items = [⟨z.clip, 0, false⟩] ∧ b.lastMarked = some k ∧ b.outstanding = 1
        ∧ t.lists = { d.lists with
            pool := d.lists.pool.set o (some { z with state := .inUse, holders := z.holders ++ [⟨p, b.id⟩] }) }
        ∧ t.cat = { d.cat with places := d.cat.places.set place (some { r with play := r.play + 1 }) })
  ∧ (∀ (x : Site) (d d1 : Device) (y : Draft) (n : DraftNo),
      let appended := ∃ rec_, d1.asrun =
          { d.asrun with drafts := d.asrun.drafts.set n none, queue := d.asrun.queue ++ [rec_], next := d.asrun.next + 1 }
        ∧ rec_ = { y.toRecord with number := d.asrun.next, outcome := rec_.outcome }
        ∧ ((y.cause = .timeLost ∨ y.cause = .siteRestart) ∧ y.first = none → rec_.outcome = .aborted)
        ∧ (¬ ((y.cause = .timeLost ∨ y.cause = .siteRestart) ∧ y.first = none) →
          (y.blank = true → rec_.outcome = .blanked)
          ∧ (y.blank = false →
            rec_.outcome = if y.lost = 0 ∧ y.lateFill = false ∧ y.cause ≠ .programmeReset ∧ y.cause ≠ .timeLost ∧ y.cause ≠ .siteRestart
              then .played else .playedShort))
      d.asrun.queue.length < 64 →
      (∀ (p : ProgNo) (b : Break) (y0 : Draft), d1 = closeBreak x p b d → b.draft = some n → d.asrun.drafts[n] = some y0 →
        y = { y0 with
          cause := b.cause, items := b.items.take 16, moreClips := decide (16 < b.items.length), closed := true
          lost := y0.lost + ((b.endF - b.out).toNat - (b.marked.filter (fun k => inRange k b.out b.endF)).length) } →
        (0 < y.outstanding → d1.asrun = { d.asrun with drafts := d.asrun.drafts.set n (some y) })
        ∧ (y.outstanding = 0 → appended)
        ∧ d1.splice.progs[p] = { d.splice.progs[p] with
            active := if (d.splice.progs[p]).active.any (fun a => a.id == b.id) then none else (d.splice.progs[p]).active
            ended := (d.splice.progs[p]).ended.filter (fun a => a.id != b.id)
            closed := if 0 < b.outstanding then (d.splice.progs[p]).closed ++ [b] else (d.splice.progs[p]).closed }
        ∧ (∀ l e, b.list = some l → b.current = some e → ∀ o ∈ d.lists.rings[l], ∀ z, d1.lists.pool[o] = some z → z.heldBy b.id = false)
        ∧ (∀ clip r, b.playing = some clip → b.current = none → clipRecord clip d = some r →
          clipRecord clip d1 = some { r with play := r.play - 1 })
        ∧ (∀ (l : ListNo) (e : EntryNo) (pre post : List EntryNo), b.list = some l → b.current = some e →
          d.lists.rings[l] = pre ++ e :: post → (d.lists.rings[l]).Nodup →
          (∀ o ∈ d.lists.rings[l], ∀ z, d.lists.pool[o] = some z → z.list = l) →
          let left := fun z : RingEntry => z.holders.filter (fun h => h.brk != b.id)
          let goes := fun z : RingEntry => z.heldBy b.id && (left z).isEmpty && z.state == .retiring
          let turned := if b.source = .list then e :: post ++ pre else post ++ pre ++ [e]
          d1.lists.rings = d.lists.rings.set l (turned.filter (fun o => !(d.lists.pool[o]).any goes))
          ∧ (∀ (o : EntryNo) (z : RingEntry), d.lists.pool[o] = some z →
            d1.lists.pool[o] =
              if o ∉ d.lists.rings[l] ∨ z.heldBy b.id = false then some z
              else if left z ≠ [] then some { z with holders := left z }
              else if z.state = .retiring then none
              else some { z with state := .idle, holders := [] })
          ∧ (∀ (clip : ClipId) (r : ClipRecord), clipRecord clip d = some r → r.state ≠ .absent →
            clipRecord clip d1 = some
              { r with
                play := if b.playing = some clip then r.play - 1 else r.play
                use := r.use - (turned.filter (fun o => (d.lists.pool[o]).any (fun z => goes z && z.clip == clip))).length })))
      ∧ (∀ (f : Fate) (m : Mark) (b : Break) (y0 : Draft), d1 = markFate x f d m → getBreak m.prog m.brk d = some b → b.draft = some n →
        d.asrun.drafts[n] = some y0 →
        y = (match f with
          | .sent => { y0 with outstanding := y0.outstanding - 1, emitted := y0.emitted + 1 }
          | .standby i =>
            { y0 with
              outstanding := y0.outstanding - 1, emitted := y0.emitted + 1, standby := true
              first := some (y0.first.getD i), last := some i }
          | .muted | .flushed => { y0 with outstanding := y0.outstanding - 1, lost := y0.lost + 1, muted := true }
          | .dropped | .reexamined | .removed => { y0 with outstanding := y0.outstanding - 1, lost := y0.lost + 1 }) →
        (y.closed = false ∨ 0 < y.outstanding → d1.asrun = { d.asrun with drafts := d.asrun.drafts.set n (some y) })
        ∧ (y.closed = true → y.outstanding = 0 → appended)))

end Statements
end

