-- ==== Sys2Proof/Laws/Memory.lean ====
section
/-! SUPPORT. The laws of site memory: every write keeps the canonical form, a byte reads as it was last written, and a write leaves
every other address as it was. -/

namespace Sys2Proof.Machine

/-- Every address of a site memory's list is at least `k`. -/
def MemFrom (k : Nat) : SiteMemory → Prop
  | [] => True
  | (a, _) :: _ => k ≤ a

theorem memWf_tail {c : Host.Cell} {m : SiteMemory} (h : memWf (c :: m) = true) : memWf m = true := by
  rcases c with ⟨a, v⟩
  cases m with
  | nil => rfl
  | cons b m => rcases b with ⟨b, w⟩; simp [memWf] at h; exact h.2

theorem memWf_head {a : Nat} {v : Byte} {m : SiteMemory} (h : memWf ((a, v) :: m) = true) :
    v ≠ unwrittenByte ∧ MemFrom (a + 1) m := by
  cases m with
  | nil => simp [memWf] at h; exact ⟨h, trivial⟩
  | cons b m => rcases b with ⟨b, w⟩; simp [memWf] at h; exact ⟨h.1.1, h.1.2⟩

/-- What makes a list with a first entry canonical. -/
theorem memWf_cons {a : Nat} {v : Byte} {m : SiteMemory} (hv : v ≠ unwrittenByte) (hf : MemFrom (a + 1) m) (hm : memWf m = true) :
    memWf ((a, v) :: m) = true := by
  cases m with
  | nil => simp [memWf, hv]
  | cons b m => rcases b with ⟨b, w⟩; simp [memWf, hv]; exact ⟨hf, hm⟩

theorem memFrom_mono {k l : Nat} {m : SiteMemory} (h : k ≤ l) (hm : MemFrom l m) : MemFrom k m := by
  cases m with
  | nil => trivial
  | cons b m => exact Nat.le_trans h hm

/-- A write at or above `k` keeps every address at or above `k`. -/
theorem memWrite_from {k : Nat} (a : Nat) (v : Byte) (hk : k ≤ a) :
    ∀ m : SiteMemory, memWf m = true → MemFrom k m → MemFrom k (memWrite m a v)
  | [], _, _ => by unfold memWrite; split <;> simp [MemFrom, hk]
  | (b, w) :: m, hw, hm => by
    have hb : k ≤ b := hm
    unfold memWrite
    split
    · split
      · exact hb
      · exact hk
    · split
      · split
        · exact memFrom_mono (by omega) (memWf_head hw).2
        · exact hb
      · exact hb

/-- A write keeps the canonical form. -/
theorem memWf_memWrite (a : Nat) (v : Byte) : ∀ m : SiteMemory, memWf m = true → memWf (memWrite m a v) = true
  | [], _ => by unfold memWrite; split <;> simp_all [memWf]
  | (b, w) :: m, h => by
    have hh := memWf_head h
    have ht := memWf_tail h
    unfold memWrite
    split
    · split
      · exact h
      · exact memWf_cons ‹_› (by show a + 1 ≤ b; omega) h
    · split
      · split
        · exact ht
        · exact memWf_cons ‹_› hh.2 ht
      · exact memWf_cons hh.1 (memWrite_from a v (by omega) m ht hh.2) (memWf_memWrite a v m ht)

/-- An address below a canonical list reads as unwritten. -/
theorem memRead_below {k : Nat} : ∀ m : SiteMemory, memWf m = true → MemFrom (k + 1) m → memRead m k = unwrittenByte
  | [], _, _ => rfl
  | (b, w) :: m, h, hf => by
    have hb : k + 1 ≤ b := hf
    have : b ≠ k := by omega
    simp only [memRead, this, if_false]
    exact memRead_below m (memWf_tail h) (memFrom_mono (by omega) (memWf_head h).2)

/-- A byte reads as it was last written, and a write leaves every other address as it was. -/
theorem memRead_memWrite (a : Nat) (v : Byte) (k : Nat) :
    ∀ m : SiteMemory, memWf m = true → memRead (memWrite m a v) k = if k = a then v else memRead m k
  | [], _ => by
    unfold memWrite
    split
    · next h => by_cases hk : k = a <;> simp [memRead, hk, h]
    · by_cases hk : k = a
      · simp [memRead, hk]
      · simp [memRead, hk, Ne.symm hk]
  | (b, w) :: m, h => by
    have hh := memWf_head h
    have ht := memWf_tail h
    unfold memWrite
    by_cases hab : a < b
    · simp only [hab, if_true]
      by_cases hv : v = unwrittenByte
      · simp only [hv, if_true]
        by_cases hk : k = a
        · subst hk
          simp only [if_true]
          exact memRead_below _ h (by show k + 1 ≤ b; omega)
        · simp [hk]
      · simp only [hv, if_false]
        by_cases hk : k = a
        · simp [memRead, hk]
        · simp [memRead, hk, Ne.symm hk]
    · by_cases hba : a = b
      · subst hba
        simp only [Nat.lt_irrefl, if_true, if_false]
        by_cases hv : v = unwrittenByte
        · simp only [hv, if_true]
          by_cases hk : k = a
          · subst hk; simp only [if_true]; exact memRead_below m ht hh.2
          · simp [memRead, hk, Ne.symm hk]
        · simp only [hv, if_false]
          by_cases hk : k = a
          · simp [memRead, hk]
          · simp [memRead, hk, Ne.symm hk]
      · simp only [hab, hba, if_false]
        by_cases hk : b = k
        · subst hk; simp [memRead, Ne.symm hba]
        · simp only [memRead, hk, if_false]
          exact memRead_memWrite a v k m ht

/-- A run of writes keeps the canonical form. -/
theorem memWf_memWriteRun : ∀ (bs : Bytes) (m : SiteMemory) (k : Nat), memWf m = true → memWf (memWriteRun m k bs) = true
  | [], _, _, h => h
  | v :: vs, m, k, h => memWf_memWriteRun vs _ _ (memWf_memWrite k v m h)

/-- A run of writes leaves every address below it as it was. -/
theorem memRead_memWriteRun_below : ∀ (bs : Bytes) (m : SiteMemory) (k a : Nat), memWf m = true → a < k →
    memRead (memWriteRun m k bs) a = memRead m a
  | [], _, _, _, _, _ => rfl
  | v :: vs, m, k, a, h, hk => by
    show memRead (memWriteRun (memWrite m k v) (k + 1) vs) a = _
    rw [memRead_memWriteRun_below vs _ _ _ (memWf_memWrite k v m h) (by omega), memRead_memWrite k v a m h]
    have : a ≠ k := by omega
    simp [this]

/-- A run of writes leaves every address past it as it was. -/
theorem memRead_memWriteRun_above : ∀ (bs : Bytes) (m : SiteMemory) (k a : Nat), memWf m = true → k + bs.length ≤ a →
    memRead (memWriteRun m k bs) a = memRead m a
  | [], _, _, _, _, _ => rfl
  | v :: vs, m, k, a, h, hk => by
    show memRead (memWriteRun (memWrite m k v) (k + 1) vs) a = _
    have hl : k + 1 + vs.length ≤ a := by simp at hk; omega
    rw [memRead_memWriteRun_above vs _ _ _ (memWf_memWrite k v m h) hl, memRead_memWrite k v a m h]
    have : a ≠ k := by omega
    simp [this]

/-- What a burst leaves in site memory is canonical. -/
theorem memWf_store (t : Target) (m : SiteMemory) (h : memWf m = true) : memWf (t.store m) = true := by
  cases t with
  | slot i pl => exact h
  | intake i pl c => exact memWf_memWriteRun c _ _ h
  | splice i pl p c => exact memWf_memWriteRun c _ _ h
  | block b i c => exact memWf_memWriteRun c _ _ h

/-- How many bytes a read of a run gives. -/
theorem memReadRun_length (m : SiteMemory) (k n : Nat) : (memReadRun m k n).length = n := by simp [memReadRun]

/-- Site memory after the reset line has nothing listed. -/
theorem memWf_reset : memWf State.reset.dev.mem = true := rfl

end Sys2Proof.Machine
end

