-- ==== Sys2Proof/Laws/State.lean ====
section
/-! SUPPORT. The small lemmas of the record updates: what each field of the device or the state is after an update of another field.
Each is true by `rfl`, up to the choice of a port or a feed. -/

namespace Sys2Proof.Machine

variable (s : State) (d : Device) (x : Site) (tb : Timebase) (f : Feed) (p : Port)

/-! ### `Device.setEm` -/

@[simp] theorem Device.setEm_intakeA (e : Emission) : (d.setEm e).intakeA = d.intakeA := rfl
@[simp] theorem Device.setEm_intakeB (e : Emission) : (d.setEm e).intakeB = d.intakeB := rfl
@[simp] theorem Device.setEm_sel (e : Emission) : (d.setEm e).sel = d.sel := rfl
@[simp] theorem Device.setEm_em (e : Emission) : (d.setEm e).em = e := rfl
@[simp] theorem Device.setEm_slots (e : Emission) : (d.setEm e).slots = d.slots := rfl
@[simp] theorem Device.setEm_mem (e : Emission) : (d.setEm e).mem = d.mem := rfl
@[simp] theorem Device.setEm_arb (e : Emission) : (d.setEm e).arb = d.arb := rfl
@[simp] theorem Device.setEm_cat (e : Emission) : (d.setEm e).cat = d.cat := rfl
@[simp] theorem Device.setEm_lists (e : Emission) : (d.setEm e).lists = d.lists := rfl
@[simp] theorem Device.setEm_splice (e : Emission) : (d.setEm e).splice = d.splice := rfl
@[simp] theorem Device.setEm_asrun (e : Emission) : (d.setEm e).asrun = d.asrun := rfl
@[simp] theorem Device.setEm_counters (e : Emission) : (d.setEm e).counters = d.counters := rfl
@[simp] theorem Device.setEm_latched (e : Emission) : (d.setEm e).latched = d.latched := rfl
@[simp] theorem Device.setEm_net (e : Emission) : (d.setEm e).net = d.net := rfl
@[simp] theorem Device.setEm_maint (e : Emission) : (d.setEm e).maint = d.maint := rfl

/-! ### `Device.setArb` -/

@[simp] theorem Device.setArb_intakeA (a : Arbiter) : (d.setArb a).intakeA = d.intakeA := rfl
@[simp] theorem Device.setArb_intakeB (a : Arbiter) : (d.setArb a).intakeB = d.intakeB := rfl
@[simp] theorem Device.setArb_sel (a : Arbiter) : (d.setArb a).sel = d.sel := rfl
@[simp] theorem Device.setArb_em (a : Arbiter) : (d.setArb a).em = d.em := rfl
@[simp] theorem Device.setArb_slots (a : Arbiter) : (d.setArb a).slots = d.slots := rfl
@[simp] theorem Device.setArb_mem (a : Arbiter) : (d.setArb a).mem = d.mem := rfl
@[simp] theorem Device.setArb_arb (a : Arbiter) : (d.setArb a).arb = a := rfl
@[simp] theorem Device.setArb_cat (a : Arbiter) : (d.setArb a).cat = d.cat := rfl
@[simp] theorem Device.setArb_lists (a : Arbiter) : (d.setArb a).lists = d.lists := rfl
@[simp] theorem Device.setArb_splice (a : Arbiter) : (d.setArb a).splice = d.splice := rfl
@[simp] theorem Device.setArb_asrun (a : Arbiter) : (d.setArb a).asrun = d.asrun := rfl
@[simp] theorem Device.setArb_counters (a : Arbiter) : (d.setArb a).counters = d.counters := rfl
@[simp] theorem Device.setArb_latched (a : Arbiter) : (d.setArb a).latched = d.latched := rfl
@[simp] theorem Device.setArb_net (a : Arbiter) : (d.setArb a).net = d.net := rfl
@[simp] theorem Device.setArb_maint (a : Arbiter) : (d.setArb a).maint = d.maint := rfl

/-! ### `Device.setCat` -/

@[simp] theorem Device.setCat_intakeA (c : Catalogue) : (d.setCat c).intakeA = d.intakeA := rfl
@[simp] theorem Device.setCat_intakeB (c : Catalogue) : (d.setCat c).intakeB = d.intakeB := rfl
@[simp] theorem Device.setCat_sel (c : Catalogue) : (d.setCat c).sel = d.sel := rfl
@[simp] theorem Device.setCat_em (c : Catalogue) : (d.setCat c).em = d.em := rfl
@[simp] theorem Device.setCat_slots (c : Catalogue) : (d.setCat c).slots = d.slots := rfl
@[simp] theorem Device.setCat_mem (c : Catalogue) : (d.setCat c).mem = d.mem := rfl
@[simp] theorem Device.setCat_arb (c : Catalogue) : (d.setCat c).arb = d.arb := rfl
@[simp] theorem Device.setCat_cat (c : Catalogue) : (d.setCat c).cat = c := rfl
@[simp] theorem Device.setCat_lists (c : Catalogue) : (d.setCat c).lists = d.lists := rfl
@[simp] theorem Device.setCat_splice (c : Catalogue) : (d.setCat c).splice = d.splice := rfl
@[simp] theorem Device.setCat_asrun (c : Catalogue) : (d.setCat c).asrun = d.asrun := rfl
@[simp] theorem Device.setCat_counters (c : Catalogue) : (d.setCat c).counters = d.counters := rfl
@[simp] theorem Device.setCat_latched (c : Catalogue) : (d.setCat c).latched = d.latched := rfl
@[simp] theorem Device.setCat_net (c : Catalogue) : (d.setCat c).net = d.net := rfl
@[simp] theorem Device.setCat_maint (c : Catalogue) : (d.setCat c).maint = d.maint := rfl

/-! ### `Device.setLists` -/

@[simp] theorem Device.setLists_intakeA (l : BreakLists) : (d.setLists l).intakeA = d.intakeA := rfl
@[simp] theorem Device.setLists_intakeB (l : BreakLists) : (d.setLists l).intakeB = d.intakeB := rfl
@[simp] theorem Device.setLists_sel (l : BreakLists) : (d.setLists l).sel = d.sel := rfl
@[simp] theorem Device.setLists_em (l : BreakLists) : (d.setLists l).em = d.em := rfl
@[simp] theorem Device.setLists_slots (l : BreakLists) : (d.setLists l).slots = d.slots := rfl
@[simp] theorem Device.setLists_mem (l : BreakLists) : (d.setLists l).mem = d.mem := rfl
@[simp] theorem Device.setLists_arb (l : BreakLists) : (d.setLists l).arb = d.arb := rfl
@[simp] theorem Device.setLists_cat (l : BreakLists) : (d.setLists l).cat = d.cat := rfl
@[simp] theorem Device.setLists_lists (l : BreakLists) : (d.setLists l).lists = l := rfl
@[simp] theorem Device.setLists_splice (l : BreakLists) : (d.setLists l).splice = d.splice := rfl
@[simp] theorem Device.setLists_asrun (l : BreakLists) : (d.setLists l).asrun = d.asrun := rfl
@[simp] theorem Device.setLists_counters (l : BreakLists) : (d.setLists l).counters = d.counters := rfl
@[simp] theorem Device.setLists_latched (l : BreakLists) : (d.setLists l).latched = d.latched := rfl
@[simp] theorem Device.setLists_net (l : BreakLists) : (d.setLists l).net = d.net := rfl
@[simp] theorem Device.setLists_maint (l : BreakLists) : (d.setLists l).maint = d.maint := rfl

/-! ### `Device.setAsRun` -/

@[simp] theorem Device.setAsRun_intakeA (a : AsRun) : (d.setAsRun a).intakeA = d.intakeA := rfl
@[simp] theorem Device.setAsRun_intakeB (a : AsRun) : (d.setAsRun a).intakeB = d.intakeB := rfl
@[simp] theorem Device.setAsRun_sel (a : AsRun) : (d.setAsRun a).sel = d.sel := rfl
@[simp] theorem Device.setAsRun_em (a : AsRun) : (d.setAsRun a).em = d.em := rfl
@[simp] theorem Device.setAsRun_slots (a : AsRun) : (d.setAsRun a).slots = d.slots := rfl
@[simp] theorem Device.setAsRun_mem (a : AsRun) : (d.setAsRun a).mem = d.mem := rfl
@[simp] theorem Device.setAsRun_arb (a : AsRun) : (d.setAsRun a).arb = d.arb := rfl
@[simp] theorem Device.setAsRun_cat (a : AsRun) : (d.setAsRun a).cat = d.cat := rfl
@[simp] theorem Device.setAsRun_lists (a : AsRun) : (d.setAsRun a).lists = d.lists := rfl
@[simp] theorem Device.setAsRun_splice (a : AsRun) : (d.setAsRun a).splice = d.splice := rfl
@[simp] theorem Device.setAsRun_asrun (a : AsRun) : (d.setAsRun a).asrun = a := rfl
@[simp] theorem Device.setAsRun_counters (a : AsRun) : (d.setAsRun a).counters = d.counters := rfl
@[simp] theorem Device.setAsRun_latched (a : AsRun) : (d.setAsRun a).latched = d.latched := rfl
@[simp] theorem Device.setAsRun_net (a : AsRun) : (d.setAsRun a).net = d.net := rfl
@[simp] theorem Device.setAsRun_maint (a : AsRun) : (d.setAsRun a).maint = d.maint := rfl

/-! ### `Device.setSel` -/

@[simp] theorem Device.setSel_intakeA (c : Selector) : (d.setSel c).intakeA = d.intakeA := rfl
@[simp] theorem Device.setSel_intakeB (c : Selector) : (d.setSel c).intakeB = d.intakeB := rfl
@[simp] theorem Device.setSel_sel (c : Selector) : (d.setSel c).sel = c := rfl
@[simp] theorem Device.setSel_em (c : Selector) : (d.setSel c).em = d.em := rfl
@[simp] theorem Device.setSel_slots (c : Selector) : (d.setSel c).slots = d.slots := rfl
@[simp] theorem Device.setSel_mem (c : Selector) : (d.setSel c).mem = d.mem := rfl
@[simp] theorem Device.setSel_arb (c : Selector) : (d.setSel c).arb = d.arb := rfl
@[simp] theorem Device.setSel_cat (c : Selector) : (d.setSel c).cat = d.cat := rfl
@[simp] theorem Device.setSel_lists (c : Selector) : (d.setSel c).lists = d.lists := rfl
@[simp] theorem Device.setSel_splice (c : Selector) : (d.setSel c).splice = d.splice := rfl
@[simp] theorem Device.setSel_asrun (c : Selector) : (d.setSel c).asrun = d.asrun := rfl
@[simp] theorem Device.setSel_counters (c : Selector) : (d.setSel c).counters = d.counters := rfl
@[simp] theorem Device.setSel_latched (c : Selector) : (d.setSel c).latched = d.latched := rfl
@[simp] theorem Device.setSel_net (c : Selector) : (d.setSel c).net = d.net := rfl
@[simp] theorem Device.setSel_maint (c : Selector) : (d.setSel c).maint = d.maint := rfl

/-! ### `Device.updSlot`, `Device.updProg` -/

@[simp] theorem Device.updSlot_intakeA (i : SlotNo) (g : Record → Record) : (d.updSlot i g).intakeA = d.intakeA := rfl
@[simp] theorem Device.updSlot_intakeB (i : SlotNo) (g : Record → Record) : (d.updSlot i g).intakeB = d.intakeB := rfl
@[simp] theorem Device.updSlot_sel (i : SlotNo) (g : Record → Record) : (d.updSlot i g).sel = d.sel := rfl
@[simp] theorem Device.updSlot_em (i : SlotNo) (g : Record → Record) : (d.updSlot i g).em = d.em := rfl
@[simp] theorem Device.updSlot_slots (i : SlotNo) (g : Record → Record) : (d.updSlot i g).slots = vmodify d.slots i g := rfl
@[simp] theorem Device.updSlot_mem (i : SlotNo) (g : Record → Record) : (d.updSlot i g).mem = d.mem := rfl
@[simp] theorem Device.updSlot_arb (i : SlotNo) (g : Record → Record) : (d.updSlot i g).arb = d.arb := rfl
@[simp] theorem Device.updSlot_cat (i : SlotNo) (g : Record → Record) : (d.updSlot i g).cat = d.cat := rfl
@[simp] theorem Device.updSlot_lists (i : SlotNo) (g : Record → Record) : (d.updSlot i g).lists = d.lists := rfl
@[simp] theorem Device.updSlot_splice (i : SlotNo) (g : Record → Record) : (d.updSlot i g).splice = d.splice := rfl
@[simp] theorem Device.updSlot_asrun (i : SlotNo) (g : Record → Record) : (d.updSlot i g).asrun = d.asrun := rfl
@[simp] theorem Device.updSlot_counters (i : SlotNo) (g : Record → Record) : (d.updSlot i g).counters = d.counters := rfl
@[simp] theorem Device.updSlot_latched (i : SlotNo) (g : Record → Record) : (d.updSlot i g).latched = d.latched := rfl
@[simp] theorem Device.updSlot_net (i : SlotNo) (g : Record → Record) : (d.updSlot i g).net = d.net := rfl
@[simp] theorem Device.updSlot_maint (i : SlotNo) (g : Record → Record) : (d.updSlot i g).maint = d.maint := rfl
@[simp] theorem Device.updProg_intakeA (q : ProgNo) (g : Programme → Programme) : (d.updProg q g).intakeA = d.intakeA := rfl
@[simp] theorem Device.updProg_intakeB (q : ProgNo) (g : Programme → Programme) : (d.updProg q g).intakeB = d.intakeB := rfl
@[simp] theorem Device.updProg_sel (q : ProgNo) (g : Programme → Programme) : (d.updProg q g).sel = d.sel := rfl
@[simp] theorem Device.updProg_em (q : ProgNo) (g : Programme → Programme) : (d.updProg q g).em = d.em := rfl
@[simp] theorem Device.updProg_slots (q : ProgNo) (g : Programme → Programme) : (d.updProg q g).slots = d.slots := rfl
@[simp] theorem Device.updProg_mem (q : ProgNo) (g : Programme → Programme) : (d.updProg q g).mem = d.mem := rfl
@[simp] theorem Device.updProg_arb (q : ProgNo) (g : Programme → Programme) : (d.updProg q g).arb = d.arb := rfl
@[simp] theorem Device.updProg_cat (q : ProgNo) (g : Programme → Programme) : (d.updProg q g).cat = d.cat := rfl
@[simp] theorem Device.updProg_lists (q : ProgNo) (g : Programme → Programme) : (d.updProg q g).lists = d.lists := rfl
@[simp] theorem Device.updProg_splice (q : ProgNo) (g : Programme → Programme) : (d.updProg q g).splice = { d.splice with progs := vmodify d.splice.progs q g } := rfl
@[simp] theorem Device.updProg_asrun (q : ProgNo) (g : Programme → Programme) : (d.updProg q g).asrun = d.asrun := rfl
@[simp] theorem Device.updProg_counters (q : ProgNo) (g : Programme → Programme) : (d.updProg q g).counters = d.counters := rfl
@[simp] theorem Device.updProg_latched (q : ProgNo) (g : Programme → Programme) : (d.updProg q g).latched = d.latched := rfl
@[simp] theorem Device.updProg_net (q : ProgNo) (g : Programme → Programme) : (d.updProg q g).net = d.net := rfl
@[simp] theorem Device.updProg_maint (q : ProgNo) (g : Programme → Programme) : (d.updProg q g).maint = d.maint := rfl

/-! ### `Device.setIntake`, `Device.setPort` -/

@[simp] theorem Device.setIntake_sel (i : Intake) : (d.setIntake f i).sel = d.sel := by cases f <;> rfl
@[simp] theorem Device.setIntake_em (i : Intake) : (d.setIntake f i).em = d.em := by cases f <;> rfl
@[simp] theorem Device.setIntake_slots (i : Intake) : (d.setIntake f i).slots = d.slots := by cases f <;> rfl
@[simp] theorem Device.setIntake_mem (i : Intake) : (d.setIntake f i).mem = d.mem := by cases f <;> rfl
@[simp] theorem Device.setIntake_arb (i : Intake) : (d.setIntake f i).arb = d.arb := by cases f <;> rfl
@[simp] theorem Device.setIntake_cat (i : Intake) : (d.setIntake f i).cat = d.cat := by cases f <;> rfl
@[simp] theorem Device.setIntake_lists (i : Intake) : (d.setIntake f i).lists = d.lists := by cases f <;> rfl
@[simp] theorem Device.setIntake_splice (i : Intake) : (d.setIntake f i).splice = d.splice := by cases f <;> rfl
@[simp] theorem Device.setIntake_asrun (i : Intake) : (d.setIntake f i).asrun = d.asrun := by cases f <;> rfl
@[simp] theorem Device.setIntake_counters (i : Intake) : (d.setIntake f i).counters = d.counters := by cases f <;> rfl
@[simp] theorem Device.setIntake_latched (i : Intake) : (d.setIntake f i).latched = d.latched := by cases f <;> rfl
@[simp] theorem Device.setIntake_net (i : Intake) : (d.setIntake f i).net = d.net := by cases f <;> rfl
@[simp] theorem Device.setIntake_maint (i : Intake) : (d.setIntake f i).maint = d.maint := by cases f <;> rfl
@[simp] theorem Device.setPort_intakeA (q : PortState) : (d.setPort p q).intakeA = d.intakeA := by cases p <;> rfl
@[simp] theorem Device.setPort_intakeB (q : PortState) : (d.setPort p q).intakeB = d.intakeB := by cases p <;> rfl
@[simp] theorem Device.setPort_sel (q : PortState) : (d.setPort p q).sel = d.sel := by cases p <;> rfl
@[simp] theorem Device.setPort_em (q : PortState) : (d.setPort p q).em = d.em := by cases p <;> rfl
@[simp] theorem Device.setPort_slots (q : PortState) : (d.setPort p q).slots = d.slots := by cases p <;> rfl
@[simp] theorem Device.setPort_mem (q : PortState) : (d.setPort p q).mem = d.mem := by cases p <;> rfl
@[simp] theorem Device.setPort_arb (q : PortState) : (d.setPort p q).arb = d.arb := by cases p <;> rfl
@[simp] theorem Device.setPort_cat (q : PortState) : (d.setPort p q).cat = d.cat := by cases p <;> rfl
@[simp] theorem Device.setPort_lists (q : PortState) : (d.setPort p q).lists = d.lists := by cases p <;> rfl
@[simp] theorem Device.setPort_splice (q : PortState) : (d.setPort p q).splice = d.splice := by cases p <;> rfl
@[simp] theorem Device.setPort_asrun (q : PortState) : (d.setPort p q).asrun = d.asrun := by cases p <;> rfl
@[simp] theorem Device.setPort_counters (q : PortState) : (d.setPort p q).counters = d.counters := by cases p <;> rfl
@[simp] theorem Device.setPort_latched (q : PortState) : (d.setPort p q).latched = d.latched := by cases p <;> rfl

@[simp] theorem Device.intake_setIntake (i : Intake) : (d.setIntake f i).intake f = i := by cases f <;> rfl
theorem Device.intake_setIntake_other {f g : Feed} (h : g ≠ f) (i : Intake) : (d.setIntake f i).intake g = d.intake g := by
  cases f <;> cases g <;> first | rfl | exact absurd rfl h
@[simp] theorem Device.setIntake_setIntake (i j : Intake) : (d.setIntake f i).setIntake f j = d.setIntake f j := by cases f <;> rfl
@[simp] theorem Device.setIntake_intake : d.setIntake f (d.intake f) = d := by cases f <;> rfl
@[simp] theorem Device.intake_setPort (q : PortState) : (d.setPort p q).intake f = d.intake f := by cases p <;> rfl
@[simp] theorem Device.intake_updSlot (i : SlotNo) (g : Record → Record) : (d.updSlot i g).intake f = d.intake f := by cases f <;> rfl
@[simp] theorem Device.intake_setArb (a : Arbiter) : (d.setArb a).intake f = d.intake f := by cases f <;> rfl

@[simp] theorem Device.port_setPort (q : PortState) : (d.setPort p q).port p = q := by cases p <;> rfl
theorem Device.port_setPort_other {p q : Port} (h : q ≠ p) (y : PortState) : (d.setPort p y).port q = d.port q := by
  cases p <;> cases q <;> first | rfl | exact absurd rfl h
@[simp] theorem Device.setPort_setPort (q r : PortState) : (d.setPort p q).setPort p r = d.setPort p r := by cases p <;> rfl
@[simp] theorem Device.setPort_port : d.setPort p (d.port p) = d := by cases p <;> rfl
@[simp] theorem Device.port_setIntake (i : Intake) : (d.setIntake f i).port p = d.port p := by cases f <;> cases p <;> rfl

/-! ### The cell of a burst -/

@[simp] theorem Device.store_intakeA (t : Target) : (d.store t).intakeA = d.intakeA := rfl
@[simp] theorem Device.store_intakeB (t : Target) : (d.store t).intakeB = d.intakeB := rfl
@[simp] theorem Device.store_sel (t : Target) : (d.store t).sel = d.sel := rfl
@[simp] theorem Device.store_em (t : Target) : (d.store t).em = d.em := rfl
@[simp] theorem Device.store_slots (t : Target) : (d.store t).slots = d.slots := rfl
@[simp] theorem Device.store_mem (t : Target) : (d.store t).mem = t.store d.mem := rfl
@[simp] theorem Device.store_arb (t : Target) : (d.store t).arb = d.arb := rfl
@[simp] theorem Device.store_cat (t : Target) : (d.store t).cat = d.cat := rfl
@[simp] theorem Device.store_lists (t : Target) : (d.store t).lists = d.lists := rfl
@[simp] theorem Device.store_splice (t : Target) : (d.store t).splice = d.splice := rfl
@[simp] theorem Device.store_asrun (t : Target) : (d.store t).asrun = d.asrun := rfl
@[simp] theorem Device.store_counters (t : Target) : (d.store t).counters = d.counters := rfl
@[simp] theorem Device.store_latched (t : Target) : (d.store t).latched = d.latched := rfl
@[simp] theorem Device.store_net (t : Target) : (d.store t).net = d.net := rfl
@[simp] theorem Device.store_maint (t : Target) : (d.store t).maint = d.maint := rfl
@[simp] theorem Device.store_intake (t : Target) : (d.store t).intake f = d.intake f := by cases f <;> rfl
@[simp] theorem Device.store_port (t : Target) : (d.store t).port p = d.port p := by cases p <;> rfl
@[simp] theorem Device.store_slot (i : SlotNo) (pl : Fin 256) : d.store (.slot i pl) = d := rfl

/-! ### The state -/

@[simp] theorem State.setDev_pending : (s.setDev d).pending = s.pending := rfl
@[simp] theorem State.setDev_control : (s.setDev d).control = s.control := rfl
@[simp] theorem State.setDev_lockout : (s.setDev d).lockout = s.lockout := rfl
@[simp] theorem State.setDev_site : (s.setDev d).site = s.site := rfl
@[simp] theorem State.setDev_dev : (s.setDev d).dev = d := rfl
@[simp] theorem State.setSite_pending : (s.setSite x).pending = s.pending := rfl
@[simp] theorem State.setSite_control : (s.setSite x).control = s.control := rfl
@[simp] theorem State.setSite_lockout : (s.setSite x).lockout = s.lockout := rfl
@[simp] theorem State.setSite_site : (s.setSite x).site = x := rfl
@[simp] theorem State.setSite_dev : (s.setSite x).dev = s.dev := rfl
@[simp] theorem State.setTb_pending : (s.setTb tb).pending = s.pending := rfl
@[simp] theorem State.setTb_control : (s.setTb tb).control = s.control := rfl
@[simp] theorem State.setTb_lockout : (s.setTb tb).lockout = s.lockout := rfl
@[simp] theorem State.setTb_site : (s.setTb tb).site = { s.site with tb := tb } := rfl
@[simp] theorem State.setTb_dev : (s.setTb tb).dev = s.dev := rfl
@[simp] theorem State.setDev_self : s.setDev s.dev = s := rfl
@[simp] theorem State.setDev_setDev (e : Device) : (s.setDev d).setDev e = s.setDev e := rfl

/-! ### Tables -/

theorem vmodify_get_self {α : Type} {n : Nat} (v : Vector α n) (i : Fin n) (g : α → α) : (vmodify v i g)[i] = g v[i] := by
  simp [vmodify]

/-- The same with the index as `simp` writes it. -/
@[simp] theorem vmodify_getElem {α : Type} {n : Nat} (v : Vector α n) (i : Fin n) (g : α → α) :
    (vmodify v i g)[i.val] = g v[i.val] := vmodify_get_self v i g

theorem vmodify_get_other {α : Type} {n : Nat} (v : Vector α n) {i j : Fin n} (h : j ≠ i) (g : α → α) :
    (vmodify v i g)[j] = v[j] := by
  have : i.val ≠ j.val := fun e => h (Fin.ext e.symm)
  simp [vmodify, this]

theorem vmap_get {α β : Type} {n : Nat} (g : α → β) (v : Vector α n) (i : Fin n) : (vmap g v)[i] = g v[i] := by
  rcases v with ⟨⟨l⟩, rfl⟩
  simp [vmap]

/-- The same with the index as `simp` writes it. -/
@[simp] theorem vmap_getElem {α β : Type} {n : Nat} (g : α → β) (v : Vector α n) (i : Nat) (h : i < n) :
    (vmap g v)[i] = g v[i] := vmap_get g v ⟨i, h⟩

/-- The lowest index with a property: it has the property, and no lower index does. -/
theorem vfind_some {α : Type} {n : Nat} {v : Vector α n} {q : α → Bool} {i : Fin n} (h : vfind v q = some i) :
    q v[i] = true ∧ ∀ j < i, q v[j] = false := by
  unfold vfind at h
  have := List.find?_eq_some_iff_getElem.mp h
  obtain ⟨hp, k, hk, he, hlow⟩ := this
  refine ⟨by simpa using hp, fun j hj => ?_⟩
  have hk' : k = i.val := by rw [← he]; simp
  have := hlow j.val (by omega)
  simpa using this

/-- No index has the property. -/
theorem vfind_none {α : Type} {n : Nat} {v : Vector α n} {q : α → Bool} (h : vfind v q = none) (i : Fin n) : q v[i] = false := by
  simpa using List.find?_eq_none.mp h i (List.mem_finRange i)

end Sys2Proof.Machine
end

