-- ==== Sys2Proof/Laws/Ports.lean ====
section
/-! SUPPORT. What the shared operations of the management ports do: taking a request, answering it, and recomputing the summaries. -/

namespace Sys2Proof.Machine

/-- A port with nothing to take is left as it is. -/
theorem takeNext_nothing {p : Port} {s : State} (h : NothingToTake p s) : takeNext p s = s := by
  unfold takeNext; dsimp only
  rcases h with h | h | h
  · obtain ⟨v, hv⟩ := Option.isSome_iff_exists.mp h
    simp [hv]
  · rw [h]; cases (s.dev.port p).service <;> rfl
  · split
    · simp [h]
    · rfl

/-- A port whose service is occupied takes nothing. -/
theorem takeNext_service {p : Port} {s : State} {v : Service} (h : (s.dev.port p).service = some v) : takeNext p s = s :=
  takeNext_nothing (.inl (by simp [h]))

/-- Everything a taking can do: nothing, or the oldest request of the queue goes into service with the checks of R172 made. -/
theorem takeNext_cases (p : Port) (s : State) :
    takeNext p s = s ∨ ∃ r rest, (s.dev.port p).service = none ∧ (s.dev.port p).queue = r :: rest
      ∧ takeNext p s = s.setDev (s.dev.setPort p
          { s.dev.port p with queue := rest, service := some ⟨r, takingRefusal s.site.phase s.control p r⟩ }) := by
  unfold takeNext; dsimp only
  split
  · next r rest hs hq =>
    split
    · exact .inl rfl
    · exact .inr ⟨r, rest, hs, hq, rfl⟩
  · exact .inl rfl

/-- A request in service that was taken without refusal is answered as its owning block answers it. -/
theorem serve_serving {k : Kind} {p : Port} {owner : Request → State → Answer} {r : Request} {s : State} (h : Serving k p r s) :
    serve k p owner s = .next (sendReply p r (owner r s).status (owner r s).extra (owner r s).state) := by
  obtain ⟨hs, hk, -, hph⟩ := h
  simp [serve, takeNext_service hs, hs, hk, hph]

/-- A request refused at its taking is answered with that refusal, and nothing else happens. -/
theorem serve_refused {k : Kind} {p : Port} {owner : Request → State → Answer} {r : Request} {st : Status} {s : State}
    (hs : (s.dev.port p).service = some ⟨r, some st⟩) (hk : kindOf r.kind = some k) :
    serve k p owner s = .next (sendReply p r st [] s) := by
  simp [serve, takeNext_service hs, hs, hk]

/-- Everything a row of a request can do: the state stays, or the request in service after the taking is answered, by a refusal or by its
owning block. -/
theorem serve_cases (k : Kind) (p : Port) (owner : Request → State → Answer) (s : State) :
    serve k p owner s = .next s
      ∨ (∃ r st, serve k p owner s = .next (sendReply p r st [] (takeNext p s)))
      ∨ ∃ r, (takeNext p s).dev.port p = { (takeNext p s).dev.port p with service := some ⟨r, none⟩ } ∧ kindOf r.kind = some k
          ∧ k.phaseRefusal (takeNext p s).site.phase r.body = none
          ∧ serve k p owner s = .next (sendReply p r (owner r (takeNext p s)).status (owner r (takeNext p s)).extra
              (owner r (takeNext p s)).state) := by
  unfold serve
  generalize takeNext p s = t
  dsimp only
  split
  · exact .inl rfl
  · next v hv =>
    split
    · exact .inl rfl
    · next hk =>
      have hk : kindOf v.frame.kind = some k := by simpa using hk
      split
      · exact .inr (.inl ⟨_, _, rfl⟩)
      · next hr =>
        split
        · exact .inr (.inl ⟨_, _, rfl⟩)
        · next hph =>
          refine .inr (.inr ⟨v.frame, ?_, hk, hph, rfl⟩)
          have : (⟨v.frame, none⟩ : Service) = v := by rw [← hr]
          rw [this, ← hv]

/-- A recomputed summary is as the conditions and the mask give it (R179). -/
theorem refreshPort_summary (word : BitVec 16) (q : PortState) : (refreshPort word q).summaryOk word := by
  unfold refreshPort PortState.summaryOk
  dsimp only
  split
  · next h => simp at h; simp [h.1]
  · simp

@[simp] theorem refreshPort_mask (word : BitVec 16) (q : PortState) : (refreshPort word q).mask = q.mask := by
  unfold refreshPort; dsimp only; split <;> rfl
@[simp] theorem refreshPort_queue (word : BitVec 16) (q : PortState) : (refreshPort word q).queue = q.queue := by
  unfold refreshPort; dsimp only; split <;> rfl
@[simp] theorem refreshPort_rx (word : BitVec 16) (q : PortState) : (refreshPort word q).rx = q.rx := by
  unfold refreshPort; dsimp only; split <;> rfl
@[simp] theorem refreshPort_service (word : BitVec 16) (q : PortState) : (refreshPort word q).service = q.service := by
  unfold refreshPort; dsimp only; split <;> rfl

/-- A port whose summary is already as the conditions give it is left as it is. -/
theorem refreshPort_same {word : BitVec 16} {q : PortState} (h : q.summaryOk word) : refreshPort word q = q := by
  unfold refreshPort PortState.summaryOk at *
  dsimp only
  split
  · next hr => simp at hr; simp_all
  · rw [← h]

/-- Conditions do not depend on the ports. -/
@[simp] theorem conditionWord_setPort (x : Site) (d : Device) (p : Port) (q : PortState) :
    conditionWord x (d.setPort p q) = conditionWord x d := by cases p <;> rfl
@[simp] theorem conditionWord_refresh (x : Site) (d : Device) : conditionWord x (refresh x d) = conditionWord x d := rfl

@[simp] theorem port_refresh (x : Site) (d : Device) (p : Port) :
    (refresh x d).port p = refreshPort (conditionWord x d) (d.port p) := by cases p <;> rfl

end Sys2Proof.Machine
end

