-- ==== Sys2Proof/Laws/Frames.lean ====
section
/-! SUPPORT. What the operations of the store, the as-run unit, the splice engine, the emission unit and the release scheduler leave as it
was. Each of them leaves the intakes, the selector, the load FIFO, the receivers, the input queues, the services and the masks alone,
keeps site memory canonical and the as-run queue within its capacity, and leaves the summaries as the conditions give them. -/

namespace Sys2Proof.Machine

/-- A programme's cue queue and expired list are within their capacities (R133, R137, R139). -/
abbrev Programme.inBounds (g : Programme) : Prop := g.queue.length ≤ Config.cueQueueSize ∧ g.expired.length ≤ Config.expiredSize

/-- Every programme's cue queue and expired list are within their capacities. -/
abbrev CuesOk (d : Device) : Prop := ∀ p : ProgNo, (d.splice.progs[p]).inBounds

/-- What an operation below the selector keeps, the summaries apart. -/
structure Weak (d d' : Device) : Prop where
  intakeA : d'.intakeA = d.intakeA
  intakeB : d'.intakeB = d.intakeB
  sel : d'.sel = d.sel
  load : d'.cat.fifo = d.cat.fifo
  net : d'.net = { d.net with summary := d'.net.summary, tx := d'.net.tx }
  maint : d'.maint = { d.maint with summary := d'.maint.summary, tx := d'.maint.tx }
  mem : memWf d.mem = true → memWf d'.mem = true
  asrun : d.asrun.queue.length ≤ Config.asRunQueueSize → d'.asrun.queue.length ≤ Config.asRunQueueSize
  cues : CuesOk d → CuesOk d'

/-- Both summaries are as the conditions and the masks give them. -/
abbrev SummariesOk (x : Site) (d : Device) : Prop :=
  d.net.summaryOk (conditionWord x d) ∧ d.maint.summaryOk (conditionWord x d)

/-- What an operation below the selector keeps. -/
structure Lower (x : Site) (d d' : Device) : Prop extends Weak d d' where
  summary : SummariesOk x d → SummariesOk x d'

variable {x : Site} {d d0 : Device}

theorem Weak.refl (d : Device) : Weak d d := ⟨rfl, rfl, rfl, rfl, rfl, rfl, id, id, id⟩
theorem Lower.refl (x : Site) (d : Device) : Lower x d d := ⟨Weak.refl d, id⟩

/-- A fold keeps what each of its turns keeps. -/
theorem Lower.foldl {α : Type} {g : Device → α → Device} (hg : ∀ e a, Lower x d0 e → Lower x d0 (g e a)) :
    ∀ (l : List α) (d : Device), Lower x d0 d → Lower x d0 (l.foldl g d)
  | [], _, h => h
  | a :: l, _, h => Lower.foldl hg l _ (hg _ a h)

/-! ### Updates of one part -/

theorem Lower.setEm (h : Lower x d0 d) (e : Emission) : Lower x d0 (d.setEm e) :=
  ⟨⟨h.intakeA, h.intakeB, h.sel, h.load, h.net, h.maint, h.mem, h.asrun, h.cues⟩, h.summary⟩
theorem Lower.setArb (h : Lower x d0 d) (a : Arbiter) : Lower x d0 (d.setArb a) :=
  ⟨⟨h.intakeA, h.intakeB, h.sel, h.load, h.net, h.maint, h.mem, h.asrun, h.cues⟩, h.summary⟩
theorem Lower.setLists (h : Lower x d0 d) (l : BreakLists) : Lower x d0 (d.setLists l) :=
  ⟨⟨h.intakeA, h.intakeB, h.sel, h.load, h.net, h.maint, h.mem, h.asrun, h.cues⟩, h.summary⟩
theorem Lower.setCat (h : Lower x d0 d) (c : Catalogue) (hc : c.fifo = d.cat.fifo) : Lower x d0 (d.setCat c) :=
  ⟨⟨h.intakeA, h.intakeB, h.sel, hc.trans h.load, h.net, h.maint, h.mem, h.asrun, h.cues⟩, h.summary⟩
theorem Lower.updSlot (h : Lower x d0 d) (i : SlotNo) (g : Record → Record) : Lower x d0 (d.updSlot i g) :=
  ⟨⟨h.intakeA, h.intakeB, h.sel, h.load, h.net, h.maint, h.mem, h.asrun, h.cues⟩, h.summary⟩
theorem Lower.setCounters (h : Lower x d0 d) (v : Vector Counter 8) : Lower x d0 { d with counters := v } :=
  ⟨⟨h.intakeA, h.intakeB, h.sel, h.load, h.net, h.maint, h.mem, h.asrun, h.cues⟩, h.summary⟩
theorem Lower.spliceQueue (h : Lower x d0 d) (q : List SlotNo) (n : Nat) :
    Lower x d0 { d with splice := { d.splice with queue := q, nextBreak := n } } :=
  ⟨⟨h.intakeA, h.intakeB, h.sel, h.load, h.net, h.maint, h.mem, h.asrun, h.cues⟩, h.summary⟩
theorem Lower.writeMem (h : Lower x d0 d) (k : Nat) (bs : Bytes) : Lower x d0 { d with mem := memWriteRun d.mem k bs } :=
  ⟨⟨h.intakeA, h.intakeB, h.sel, h.load, h.net, h.maint, fun hm => memWf_memWriteRun bs _ k (h.mem hm), h.asrun, h.cues⟩, h.summary⟩

/-- A change of programmes' live parts that leaves every cue queue alone leaves CUE_QUERY alone. -/
theorem cueQuery_same {d d' : Device}
    (hq : ∀ i : Fin 8, (d'.splice.progs[i]).queue = (d.splice.progs[i]).queue) : cueQuery d' = cueQuery d := by
  have he : d'.splice.progs.toList.map (·.queue) = d.splice.progs.toList.map (·.queue) := by
    apply List.ext_getElem (by simp)
    intro n h1 h2
    simp only [List.length_map, Vector.length_toList] at h1
    simpa using hq ⟨n, h1⟩
  have : ∀ v : Vector Programme 8,
      v.toList.any (fun p => p.queue.any Cue.isQuery) = (v.toList.map (·.queue)).any (fun q => q.any Cue.isQuery) := by
    intro v; rw [List.any_map]; rfl
  unfold cueQuery
  rw [this, this, he]

theorem conditionWord_progs {d d' : Device} (hA : d'.intakeA = d.intakeA) (hB : d'.intakeB = d.intakeB)
    (ha : d'.asrun = d.asrun) (hl : d'.latched = d.latched)
    (hq : ∀ i : Fin 8, (d'.splice.progs[i]).queue = (d.splice.progs[i]).queue) : conditionWord x d' = conditionWord x d := by
  simp only [conditionWord, levelWord, outputMode, muteNoFeed, hA, hB, ha, hl, cueQuery_same hq]
  rfl

/-- A programme's live part changed within its capacities leaves every programme within them. -/
theorem CuesOk.updProg (h : CuesOk d) (p : ProgNo) (g : Programme → Programme) (hb : ∀ q : Programme, q.inBounds → (g q).inBounds) :
    CuesOk (d.updProg p g) := by
  intro i
  rw [Device.updProg_splice]
  by_cases hi : i = p
  · subst hi
    have he : (vmodify d.splice.progs i g)[i] = g d.splice.progs[i] := vmodify_get_self _ _ _
    show ((vmodify d.splice.progs i g)[i]).inBounds
    rw [he]; exact hb _ (h i)
  · have he : (vmodify d.splice.progs p g)[i] = d.splice.progs[i] := vmodify_get_other _ hi _
    show ((vmodify d.splice.progs p g)[i]).inBounds
    rw [he]; exact h i

theorem Lower.updProg (h : Lower x d0 d) (p : ProgNo) (g : Programme → Programme) (hg : ∀ q, (g q).queue = q.queue)
    (hb : ∀ q : Programme, q.expired.length ≤ Config.expiredSize → (g q).expired.length ≤ Config.expiredSize := by exact fun _ h => h) :
    Lower x d0 (d.updProg p g) := by
  refine ⟨⟨h.intakeA, h.intakeB, h.sel, h.load, h.net, h.maint, h.mem, h.asrun, fun hc =>
    (h.cues hc).updProg p g (fun q hq => ⟨by rw [hg]; exact hq.1, hb q hq.2⟩)⟩, fun hs => ?_⟩
  have hw : conditionWord x (d.updProg p g) = conditionWord x d := by
    apply conditionWord_progs <;> try rfl
    intro i
    by_cases hi : i = p
    · subst hi; rw [Device.updProg_splice]; exact (congrArg _ (vmodify_get_self _ _ _)).trans (hg _)
    · rw [Device.updProg_splice]; exact congrArg _ (vmodify_get_other _ hi _)
  unfold SummariesOk
  rw [hw]
  exact h.summary hs

theorem Weak.updProg (h : Weak d0 d) (p : ProgNo) (g : Programme → Programme)
    (hb : CuesOk d → (g d.splice.progs[p]).inBounds) : Weak d0 (d.updProg p g) :=
  ⟨h.intakeA, h.intakeB, h.sel, h.load, h.net, h.maint, h.mem, h.asrun, fun hc i => by
    rw [Device.updProg_splice]
    by_cases hi : i = p
    · subst hi
      have he : (vmodify d.splice.progs i g)[i] = g d.splice.progs[i] := vmodify_get_self _ _ _
      show ((vmodify d.splice.progs i g)[i]).inBounds
      rw [he]; exact hb (h.cues hc)
    · have he : (vmodify d.splice.progs p g)[i] = d.splice.progs[i] := vmodify_get_other _ hi _
      show ((vmodify d.splice.progs p g)[i]).inBounds
      rw [he]; exact h.cues hc i⟩

/-- The as-run unit replaced without a change of its queue. -/
theorem Lower.setAsRun (h : Lower x d0 d) (a : AsRun) (ha : a.queue = d.asrun.queue) : Lower x d0 (d.setAsRun a) := by
  refine ⟨⟨h.intakeA, h.intakeB, h.sel, h.load, h.net, h.maint, h.mem, fun hq => ?_, h.cues⟩, fun hs => ?_⟩
  · simpa [ha] using h.asrun hq
  · have hw : conditionWord x (d.setAsRun a) = conditionWord x d := by
      show levelWord x (d.setAsRun a) ||| _ = levelWord x d ||| _
      unfold levelWord
      rw [Device.setAsRun_asrun, ha]
      rfl
    unfold SummariesOk
    rw [hw]
    exact h.summary hs

theorem Weak.setAsRun (h : Weak d0 d) (a : AsRun) (ha : a.queue.length ≤ Config.asRunQueueSize ∨ a.queue = d.asrun.queue) :
    Weak d0 (d.setAsRun a) :=
  ⟨h.intakeA, h.intakeB, h.sel, h.load, h.net, h.maint, h.mem, fun hq => by
    rcases ha with ha | ha
    · exact ha
    · simpa [ha] using h.asrun hq, h.cues⟩

theorem Weak.setLatched (h : Weak d0 d) (w : BitVec 16) : Weak d0 { d with latched := w } :=
  ⟨h.intakeA, h.intakeB, h.sel, h.load, h.net, h.maint, h.mem, h.asrun, h.cues⟩

/-! ### Conditions and counts -/

/-- Recomputing the summaries makes them right whatever went before. -/
theorem refresh_lower (h : Weak d0 d) : Lower x d0 (refresh x d) := by
  have hn : (refresh x d).net = refreshPort (conditionWord x d) d.net := rfl
  have hm : (refresh x d).maint = refreshPort (conditionWord x d) d.maint := rfl
  refine ⟨⟨h.intakeA, h.intakeB, h.sel, h.load, ?_, ?_, h.mem, h.asrun, h.cues⟩, fun _ => ⟨?_, ?_⟩⟩
  · rw [hn, h.net]; unfold refreshPort; dsimp only; split <;> rfl
  · rw [hm, h.maint]; unfold refreshPort; dsimp only; split <;> rfl
  · rw [hn, conditionWord_refresh]; exact refreshPort_summary _ _
  · rw [hm, conditionWord_refresh]; exact refreshPort_summary _ _

theorem latch_lower (h : Weak d0 d) (bits : BitVec 16) : Lower x d0 (latch x bits d) := refresh_lower (h.setLatched _)

theorem bump_lower (h : Lower x d0 d) (hit : Counter → Nat) : Lower x d0 (bump x hit d) := by
  unfold bump; dsimp only
  split
  · exact latch_lower (h.setCounters _).toWeak _
  · exact h.setCounters _

theorem count_lower (h : Lower x d0 d) (cls : CountClass) (sub : Nat) : Lower x d0 (count x cls sub d) := bump_lower h _
theorem countComplete_lower (h : Lower x d0 d) (f : Feed) (v : Bool) : Lower x d0 (countComplete x f v d) := bump_lower h _
theorem sample_lower (h : Lower x d0 d) (b : Bool) : Lower x d0 (sample x b d) := bump_lower h _

/-! ### The store -/

theorem countGrant_lower (h : Lower x d0 d) (r : Requestor) : Lower x d0 (countGrant x r d) := count_lower h _ _

theorem ask_lower (h : Lower x d0 d) (r : Requestor) (t : Target) : Lower x d0 (ask x r t d) := by
  unfold ask
  split
  · exact h
  · split
    · exact countGrant_lower (h.setArb _) r
    · exact h.setArb _

theorem endBurst_lower (h : Lower x d0 d) : Lower x d0 (endBurst x d) := by
  unfold endBurst; dsimp only
  split
  · exact h.setArb _
  · split
    · exact h.setArb _
    · exact Lower.foldl (fun _ _ he => count_lower he _ _) _ _ (countGrant_lower (h.setArb _) _)

/-- The cell of a burst put in its place keeps everything but the canonical memory's contents. -/
theorem Lower.store (h : Lower x d0 d) (t : Target) : Lower x d0 (d.store t) := by
  cases t with
  | slot i pl => exact h
  | intake i pl c => exact h.writeMem _ c
  | splice i pl p c => exact h.writeMem _ c
  | block b i c => exact h.writeMem _ c

theorem freeSlot_lower (h : Lower x d0 d) (i : SlotNo) : Lower x d0 (freeSlot i d) := (h.updSlot i _).setArb _
theorem setSlotState_lower (h : Lower x d0 d) (i : SlotNo) (st : SlotState) : Lower x d0 (setSlotState i st d) := h.updSlot i _
theorem returnBlocks_lower (h : Lower x d0 d) (bs : List BlockNo) : Lower x d0 (returnBlocks bs d) := (h.setCat _ (by rfl)).setArb _

/-! ### The as-run unit -/

theorem loseRecord_lower (h : Lower x d0 d) : Lower x d0 (loseRecord x d) := latch_lower (h.toWeak.setAsRun _ (.inr (by rfl))) _

theorem pushRecord_lower (h : Lower x d0 d) (r : AsRunRecord) : Lower x d0 (pushRecord x r d) := by
  unfold pushRecord
  split
  · next hl =>
    exact refresh_lower (h.toWeak.setAsRun _ (.inl (by simp; omega)))
  · exact loseRecord_lower h

theorem immediateRecord_lower (h : Lower x d0 d) (p : ProgNo) (cue : CueId) (sc : Byte) (cf : Bool) (o : AsRunOutcome) (c : Cause) :
    Lower x d0 (immediateRecord x p cue sc cf o c d) := pushRecord_lower h _

theorem openDraft_lower (h : Lower x d0 d) (p : ProgNo) (cue : CueId) (sc : Byte) (cf bl : Bool) (c : Cause) :
    Lower x d0 (openDraft x p cue sc cf bl c d).2 := by
  unfold openDraft
  split
  · exact loseRecord_lower h
  · exact h.setAsRun _ (by rfl)

theorem onDraft_lower (h : Lower x d0 d) (i : Option DraftNo) (g : Draft → Draft) : Lower x d0 (onDraft i g d) := by
  unfold onDraft
  split
  · exact h
  · exact h.setAsRun _ (by rfl)

theorem appendDraft_lower (h : Lower x d0 d) (i : Option DraftNo) : Lower x d0 (appendDraft x i d) := by
  unfold appendDraft
  split
  · exact h
  · split
    · exact h
    · split
      · exact pushRecord_lower (h.setAsRun _ (by rfl)) _
      · exact h

theorem finishDraft_lower (h : Lower x d0 d) (i : DraftNo) : Lower x d0 (finishDraft x d i) :=
  appendDraft_lower (onDraft_lower h _ _) _

/-! ### Clips and lists -/

theorem setPlace_lower (h : Lower x d0 d) (i : PlaceNo) (r : Option ClipRecord) : Lower x d0 (setPlace i r d) := h.setCat _ (by rfl)

theorem updClip_lower (h : Lower x d0 d) (id : ClipId) (g : ClipRecord → ClipRecord) : Lower x d0 (updClip id g d) := by
  unfold updClip
  split
  · exact h
  · exact setPlace_lower h _ _

theorem lowerUse_lower (h : Lower x d0 d) (id : ClipId) : Lower x d0 (lowerUse id d) := by
  unfold lowerUse
  split
  · exact h
  · exact setPlace_lower h _ _

theorem raiseUse_lower (h : Lower x d0 d) (id : ClipId) : Lower x d0 (raiseUse id d) := updClip_lower h _ _
theorem lowerPlay_lower (h : Lower x d0 d) (id : ClipId) : Lower x d0 (lowerPlay id d) := updClip_lower h _ _

theorem raisePlay_lower (h : Lower x d0 d) {id : ClipId} {d' : Device} (hr : raisePlay id d = some d') : Lower x d0 d' := by
  unfold raisePlay at hr
  split at hr
  · cases hr
  · split at hr
    · cases hr; exact updClip_lower h _ _
    · cases hr

theorem setCtx_lower (h : Lower x d0 d) (c : CtxNo) (y : Option LoadCtx) : Lower x d0 (setCtx c y d) := h.setCat _ (by rfl)

theorem finishLoad_lower (h : Lower x d0 d) (c : CtxNo) (y : LoadCtx) : Lower x d0 (finishLoad x c y d) :=
  latch_lower (setCtx_lower (updClip_lower h _ _) _ _).toWeak _

theorem askLoad_lower (h : Lower x d0 d) : Lower x d0 (askLoad x d) := by
  unfold askLoad
  repeat' split
  all_goals first | exact h | exact ask_lower h _ _

theorem setEntry_lower (h : Lower x d0 d) (e : EntryNo) (y : Option RingEntry) : Lower x d0 (setEntry e y d) := h.setLists _
theorem setRing_lower (h : Lower x d0 d) (l : ListNo) (r : List EntryNo) : Lower x d0 (setRing l r d) := h.setLists _

theorem unlinkEntry_lower (h : Lower x d0 d) (e : EntryNo) : Lower x d0 (unlinkEntry e d) := by
  unfold unlinkEntry
  split
  · exact h
  · exact lowerUse_lower (setEntry_lower (setRing_lower h _ _) _ _) _

theorem releaseEntry_lower (h : Lower x d0 d) (brk : Nat) (e : EntryNo) : Lower x d0 (releaseEntry brk e d) := by
  unfold releaseEntry; dsimp only
  repeat' split
  all_goals first | exact h | exact unlinkEntry_lower h _ | exact setEntry_lower h _ _

theorem releaseHolds_lower (h : Lower x d0 d) (brk : Nat) (l : ListNo) : Lower x d0 (releaseHolds brk l d) :=
  Lower.foldl (fun _ _ he => releaseEntry_lower he _ _) _ _ h

theorem settleEntry_lower (h : Lower x d0 d) (e : EntryNo) : Lower x d0 (settleEntry d e) := by
  unfold settleEntry
  repeat' split
  all_goals first | exact h | exact unlinkEntry_lower h _ | exact setEntry_lower h _ _

theorem rotateList_lower (h : Lower x d0 d) (l : ListNo) (e : EntryNo) (b : Bool) : Lower x d0 (rotateList l e b d) :=
  setRing_lower h _ _

/-! ### Breaks -/

theorem updBreak_lower (h : Lower x d0 d) (p : ProgNo) (id : Nat) (g : Break → Break) : Lower x d0 (updBreak p id g d) :=
  h.updProg p _ (by intro _; rfl)

theorem toFiller_lower (h : Lower x d0 d) (b : Break) : Lower x d0 (toFiller b d).2 := by
  unfold toFiller
  split
  · exact h
  · split
    · exact h
    · next hr => exact onDraft_lower (raisePlay_lower h hr) _ _

theorem startEntries_lower (p : ProgNo) : ∀ (l : List EntryNo) (b : Break) (d : Device), Lower x d0 d →
    Lower x d0 (startEntries p l b d).2
  | [], b, d, h => toFiller_lower h b
  | e :: l, b, d, h => by
    unfold startEntries
    split
    · exact startEntries_lower p l b d h
    · split
      · exact toFiller_lower h b
      · split
        · exact startEntries_lower p l b d h
        · dsimp only
          split
          · next hr => exact raisePlay_lower (setEntry_lower h _ _) hr
          · exact startEntries_lower p l _ _ (setEntry_lower h _ _)

theorem beginSource_lower (h : Lower x d0 d) (p : ProgNo) (b : Break) : Lower x d0 (beginSource p b d).2 := by
  unfold beginSource
  split
  · exact h
  · split
    · exact toFiller_lower h b
    · exact startEntries_lower p _ b d h

theorem advanceSource_lower (h : Lower x d0 d) (p : ProgNo) (b : Break) : Lower x d0 (advanceSource p b d).2 := by
  unfold advanceSource
  split
  · dsimp only
    split
    · exact startEntries_lower p _ _ _ (lowerPlay_lower h _)
    · exact h
  · split <;> exact h
  · exact h

theorem advanceMany_lower (p : ProgNo) : ∀ (n : Nat) (b : Break) (d : Device), Lower x d0 d → Lower x d0 (advanceMany p n b d).2
  | 0, _, _, h => h
  | n + 1, b, _, h => advanceMany_lower p n _ _ (advanceSource_lower h p b)

theorem removeBreak_queue (b : Break) (q : Programme) : (removeBreak b q).queue = q.queue := rfl

theorem closeBreak_lower (h : Lower x d0 d) (p : ProgNo) (b : Break) : Lower x d0 (closeBreak x p b d) := by
  unfold closeBreak; dsimp only
  refine appendDraft_lower (Lower.updProg (onDraft_lower ?_ _ _) p _ (removeBreak_queue b)) _
  have h1 : Lower x d0 (match b.list, b.current with
    | some l, some e => releaseHolds b.id l (rotateList l e (b.source != .list) d)
    | _, _ => d) := by
    split
    · exact releaseHolds_lower (rotateList_lower h _ _ _) _ _
    · exact h
  split
  · exact lowerPlay_lower h1 _
  · exact h1

theorem closeIfDone_lower (h : Lower x d0 d) (p : ProgNo) (id : Nat) : Lower x d0 (closeIfDone x p id d) := by
  unfold closeIfDone
  split
  · exact h
  · split
    · exact closeBreak_lower h p _
    · exact h

theorem endRange_lower (h : Lower x d0 d) (p : ProgNo) : Lower x d0 (endRange x p d) := by
  unfold endRange
  split
  · exact h
  · exact closeIfDone_lower (h.updProg p _ (by intro _; rfl)) p _

theorem markFrame_lower (h : Lower x d0 d) (p : ProgNo) (i : SlotNo) (k : FrameNo) : Lower x d0 (markFrame p i k d) := by
  unfold markFrame
  split
  · exact h
  · exact onDraft_lower ((updBreak_lower h p _ _).updSlot i _) _ _

theorem markFate_lower (h : Lower x d0 d) (f : Fate) (m : Mark) : Lower x d0 (markFate x f d m) := by
  unfold markFate
  split
  · exact h
  · exact appendDraft_lower ((onDraft_lower (updBreak_lower h _ _ _) _ _).updProg _ _ (by intro _; rfl)) _

theorem finalFate_lower (h : Lower x d0 d) (f : Fate) (r : Record) : Lower x d0 (finalFate x f r d) :=
  Lower.foldl (fun _ _ he => markFate_lower he f _) _ _ h

theorem reportStart_lower (h : Lower x d0 d) (r : Record) : Lower x d0 (reportStart x r d) := by
  refine Lower.foldl (fun e m he => ?_) _ _ h
  split
  · exact he
  · exact onDraft_lower (updBreak_lower he _ _ _) _ _

theorem endFrame_lower (h : Lower x d0 d) (f : Fate) (i : SlotNo) : Lower x d0 (endFrame x f i d) :=
  freeSlot_lower (finalFate_lower h f _) i

end Sys2Proof.Machine
end

