-- ==== Sys2Proof/Laws/FramesRelease.lean ====
section
/-! SUPPORT. The frames of the splice engine, the emission unit and the release scheduler: each of their operations is `Lower`, so none
touches an intake, the selector, the load FIFO, a mask, or what a port has received. -/

namespace Sys2Proof.Machine

variable {x : Site} {d d0 : Device}

/-! ### Cues -/

theorem setQueue_lower (h : Lower x d0 d) (p : ProgNo) (q : List Cue)
    (hq : (d.splice.progs[p]).queue.length ≤ Config.cueQueueSize → q.length ≤ Config.cueQueueSize) : Lower x d0 (setQueue x p q d) :=
  refresh_lower (h.toWeak.updProg p _ (fun hc => ⟨hq (hc p).1, (hc p).2⟩))
theorem removeCue_lower (h : Lower x d0 d) (p : ProgNo) (id : CueId) : Lower x d0 (removeCue x p id d) :=
  setQueue_lower h p _ (Nat.le_trans (List.length_filter_le _ _))
theorem armCue_lower (h : Lower x d0 d) (p : ProgNo) (id : CueId) (dec : Decision) (c : Cause) :
    Lower x d0 (armCue x p id dec c d) := setQueue_lower h p _ (by simp)
theorem cueRecord_lower (h : Lower x d0 d) (p : ProgNo) (c : Cue) (o : AsRunOutcome) (cause : Cause) :
    Lower x d0 (cueRecord x p c o cause d) := immediateRecord_lower h _ _ _ _ _ _

theorem applyFallback_lower (h : Lower x d0 d) (p : ProgNo) (c : Cue) (cause : Cause) :
    Lower x d0 (applyFallback x p c cause d) := by
  unfold applyFallback
  split
  · exact cueRecord_lower (removeCue_lower h p _) p c _ _
  · exact armCue_lower h p _ _ _

theorem decideByTable_lower (h : Lower x d0 d) (p : ProgNo) (c : Cue) : Lower x d0 (decideByTable x p c d) := by
  unfold decideByTable; dsimp only
  split
  · exact armCue_lower h p _ _ _
  · exact applyFallback_lower h p c _

theorem pushExpired_length (id : CueId) (l : List CueId) (h : l.length ≤ Config.expiredSize) :
    (pushExpired id l).length ≤ Config.expiredSize := by
  unfold pushExpired
  split <;> simp [Config.expiredSize] at * <;> omega

theorem expireQuery_lower (h : Lower x d0 d) (p : ProgNo) (c : Cue) : Lower x d0 (expireQuery x p c d) :=
  applyFallback_lower ((count_lower h _ _).updProg p _ (by intro _; rfl) (fun q => pushExpired_length _ _)) p c _

theorem insertCue_length (k : FrameNo) (c : Cue) (l : List Cue) : (insertCue k c l).length = l.length + 1 := by
  induction l with
  | nil => rfl
  | cons h t ih => unfold insertCue; split <;> simp [ih]

/-- A cue that passes the checks finds room in the queue. -/
theorem refusalCause_room {set : ProgrammeSet} {g : Programme} {c : Cue} (h : refusalCause set g c = .none) :
    g.queue.length < Config.cueQueueSize := by
  unfold refusalCause at h
  dsimp only at h
  split at h
  · cases h
  · split at h
    · cases h
    · split at h
      · cases h
      · omega

theorem takeBreak_lower (h : Lower x d0 d) (p : ProgNo) (c : Cue) : Lower x d0 (takeBreak x p c d) := by
  unfold takeBreak; dsimp only
  split
  · next hr =>
    have h1 := setQueue_lower (count_lower h .cue 0) p (insertCue c.carrier c (d.splice.progs[p]).queue)
      (fun _ => by rw [insertCue_length]; exact refusalCause_room hr)
    split
    · exact h1
    · exact decideByTable_lower h1 p c
  · exact cueRecord_lower (count_lower h _ _) p c _ _

theorem takeCancel_lower (h : Lower x d0 d) (p : ProgNo) (r : CueRecord) : Lower x d0 (takeCancel x p r d) := by
  unfold takeCancel; dsimp only
  split
  · exact cueRecord_lower (removeCue_lower (count_lower h _ _) p _) p _ _ _
  · split
    · exact h
    · split
      · next b _ _ =>
        have h1 : ∀ g, Lower x d0 (updBreak p b.id g (count x .cue 5 d)) := fun g => updBreak_lower (count_lower h _ _) p b.id g
        repeat' split
        · exact endRange_lower (h1 _) p
        · exact h1 _
        · exact endRange_lower (h1 _) p
        · exact h1 _
      · exact h

theorem takeCue_lower (h : Lower x d0 d) (k : FrameNo) (e : CueEntry) : Lower x d0 (takeCue x k e d) := by
  unfold takeCue; dsimp only
  repeat' split
  · exact h
  · exact count_lower h _ _
  · exact h
  · exact takeCancel_lower h _ _
  · exact count_lower h _ _
  · exact takeBreak_lower h _ _

/-! ### Breaks and admission -/

theorem makeBreak_lower (h : Lower x d0 d) (p : ProgNo) (c : Cue) : Lower x d0 (makeBreak x p c d).2 := by
  unfold makeBreak
  exact Lower.spliceQueue (openDraft_lower (removeCue_lower h p _) _ _ _ _ _ _) _ _

theorem testActive_lower (h : Lower x d0 d) (p : ProgNo) (i : SlotNo) (k : FrameNo) : Lower x d0 (testActive x p i k d) := by
  unfold testActive; dsimp only
  repeat' split
  · exact h
  · exact endRange_lower (markFrame_lower h p i k) p
  · exact markFrame_lower h p i k
  · exact endRange_lower h p
  · exact h

theorem startBreak_lower (h : Lower x d0 d) (p : ProgNo) (i : SlotNo) (k : FrameNo) (c : Cue) :
    Lower x d0 (startBreak x p i k c d) :=
  testActive_lower ((beginSource_lower (makeBreak_lower h p c) p _).updProg p _ (by intro _; rfl)) p i k

theorem startAndEnd_lower (h : Lower x d0 d) (p : ProgNo) (c : Cue) : Lower x d0 (startAndEnd x p c d) :=
  closeBreak_lower (makeBreak_lower h p c) p _

theorem testHeads_lower (p : ProgNo) (i : SlotNo) (k : FrameNo) : ∀ (n : Nat) (d : Device), Lower x d0 d →
    Lower x d0 (testHeads x p i k n d)
  | 0, _, h => h
  | n + 1, d, h => by
    unfold testHeads; dsimp only
    repeat' split
    · exact h
    · exact testHeads_lower p i k n _ (expireQuery_lower h p _)
    · exact testHeads_lower p i k n _ (startBreak_lower h p i k _)
    · exact testHeads_lower p i k n _ (startAndEnd_lower h p _)
    · exact h

theorem programmeTurn_lower (h : Lower x d0 d) (i : SlotNo) (k : FrameNo) (p : ProgNo) :
    Lower x d0 (programmeTurn x i k d p) := by
  unfold programmeTurn; dsimp only
  split
  · exact h
  · exact testHeads_lower p i k _ _ (testActive_lower (Lower.foldl (fun _ _ he => expireQuery_lower he p _) _ _ h) p i k)

theorem leaveSpliceQueue_lower (h : Lower x d0 d) (i : SlotNo) : Lower x d0 (leaveSpliceQueue i d) := Lower.spliceQueue h _ _

theorem askSplice_lower (h : Lower x d0 d) : Lower x d0 (askSplice x d) := by
  unfold askSplice
  repeat' split
  all_goals first | exact h | exact ask_lower h _ _

theorem placeFrame_lower (h : Lower x d0 d) (i : SlotNo) : Lower x d0 (placeFrame x i d) := by
  unfold placeFrame
  split
  · exact setSlotState_lower h i _
  · exact askSplice_lower (Lower.spliceQueue (h.updSlot i _) _ _)

theorem spliceAdmission_lower (h : Lower x d0 d) (i : SlotNo) : Lower x d0 (spliceAdmission x i d) :=
  placeFrame_lower (Lower.foldl (fun _ _ he => programmeTurn_lower he _ _ _) _ _
    (Lower.foldl (fun _ _ he => takeCue_lower he _ _) _ _ h)) i

theorem spliceDiscard_lower (h : Lower x d0 d) (k : FrameNo) : Lower x d0 (spliceDiscard x k d) := by
  refine Lower.foldl (fun e p he => ?_) _ _ h
  split
  · exact endRange_lower he p
  · exact he

/-! ### Splice work -/

theorem endWork_lower (h : Lower x d0 d) (c : Bool) (p : ProgNo) (b : Nat) : Lower x d0 (endWork x c p b d) := by
  unfold endWork; dsimp only
  split
  · exact closeIfDone_lower (updBreak_lower h p _ _) p _
  · exact updBreak_lower h p _ _

theorem endWorkOn_lower (h : Lower x d0 d) (c : Bool) (r : Record) (p : ProgNo) : Lower x d0 (endWorkOn x c r p d) := by
  unfold endWorkOn
  split
  · exact h
  · exact endWork_lower h c p _

theorem settleFrame_lower (h : Lower x d0 d) (i : SlotNo) : Lower x d0 (settleFrame i d) := by
  unfold settleFrame
  split
  · exact leaveSpliceQueue_lower (h.updSlot i _) i
  · exact h

theorem spliceWrite_lower (h : Lower x d0 d) (c : Bool) (i : SlotNo) (pl : Fin 256) (p : ProgNo) :
    Lower x d0 (spliceWrite x c i pl p d) := by
  unfold spliceWrite; dsimp only
  split
  · exact h
  · split
    · exact h
    · refine settleFrame_lower ?_ i
      have h3 := fun b => advanceSource_lower (Lower.updSlot (count_lower (h.writeMem (slotAddress i pl)
        (replacement x p b (pl.val + 1) d).cell) .clipCell (replacement x p b (pl.val + 1) d).sub) i (fun r =>
          { r with
            headers := replaceEntry (replacement x p b (pl.val + 1) d).entry r.headers
            cursor := r.cursor.map (· + 1) })) p b
      split
      · exact updBreak_lower (h3 _) p _ _
      · exact endWork_lower (updBreak_lower (h3 _) p _ _) c p _

theorem completeGranted_lower (h : Lower x d0 d) (p : ProgNo) : Lower x d0 (completeGranted x p d) := by
  unfold completeGranted
  split
  · split
    · exact (spliceWrite_lower h false _ _ p).setArb _
    · exact h
  · exact h

theorem withdrawSplice_lower (h : Lower x d0 d) (q : SlotNo → ProgNo → Bool) : Lower x d0 (withdrawSplice q d) := by
  unfold withdrawSplice
  repeat' split
  all_goals first | exact h | exact h.setArb _

theorem dropFrameWork_lower (h : Lower x d0 d) (c : Bool) (i : SlotNo) : Lower x d0 (dropFrameWork x c i d) :=
  Lower.foldl (fun _ _ he => endWorkOn_lower he c _ _) _ _ (leaveSpliceQueue_lower (h.updSlot i _) i)

theorem lateFillShare_lower (h : Lower x d0 d) (i : SlotNo) (p : ProgNo) : Lower x d0 (lateFillShare x i d p) := by
  unfold lateFillShare; dsimp only
  split
  · exact h
  · split
    · exact (h.updSlot i _).updSlot i _
    · exact endWork_lower (updBreak_lower (advanceMany_lower p _ _ _ ((h.updSlot i _).updSlot i _)) p _ _) _ p _

theorem flagLateFill_lower (h : Lower x d0 d) (r : Record) : Lower x d0 (flagLateFill r d) := by
  refine Lower.foldl (fun e p he => ?_) _ _ h
  split
  · exact he
  · split
    · exact he
    · exact onDraft_lower he _ _

theorem beginLateFill_lower (h : Lower x d0 d) (i : SlotNo) : Lower x d0 (beginLateFill x i d) :=
  count_lower (flagLateFill_lower h _) _ _

theorem endLateFill_lower (h : Lower x d0 d) (i : SlotNo) : Lower x d0 (endLateFill x i d) :=
  askSplice_lower (withdrawSplice_lower (leaveSpliceQueue_lower
    (Lower.foldl (fun _ _ he => lateFillShare_lower he i _) _ _ h) i) _)

theorem takeAnswer_lower (h : Lower x d0 d) (p : ProgNo) (c : Cue) (t : Bool) (l : Option ListNo) :
    Lower x d0 (takeAnswer x p c t l d) := by
  unfold takeAnswer
  repeat' split
  · exact armCue_lower h p _ _ _
  · exact decideByTable_lower h p c
  · exact cueRecord_lower (removeCue_lower (count_lower h _ _) p _) p c _ _

theorem emptyQueue_lower (h : Lower x d0 d) (p : ProgNo) (o : AsRunOutcome) (c : Cause) (b : Bool) :
    Lower x d0 (emptyQueue x p o c b d) := by
  refine Lower.updProg (Lower.foldl (fun e a he => ?_) _ _ h) p _ (by intro _; rfl) (fun _ _ => Nat.zero_le _)
  refine cueRecord_lower (removeCue_lower ?_ p _) p a _ _
  split
  · exact count_lower he _ _
  · exact he

theorem closeBreaks_lower (h : Lower x d0 d) (p : ProgNo) (c : Cause) : Lower x d0 (closeBreaks x p c d) :=
  Lower.foldl (fun _ _ he => closeBreak_lower he p _) _ _ h

theorem endProgrammeWork_lower (h : Lower x d0 d) (p : ProgNo) : Lower x d0 (endProgrammeWork x p d) := by
  refine Lower.foldl (fun e i he => ?_) _ _ (withdrawSplice_lower (completeGranted_lower h _) _)
  split
  · exact settleFrame_lower (Lower.updSlot (endWorkOn_lower he _ _ p) i _) i
  · exact he

theorem spliceRestart_lower (h : Lower x d0 d) : Lower x d0 (spliceRestart x d) :=
  Lower.spliceQueue (Lower.foldl (fun _ p he =>
    (closeBreaks_lower (emptyQueue_lower he p _ _ _) p _).updProg p _ (by intro _; rfl)) _ _ h) _ _

/-! ### Emission -/

theorem leaveAtDue_lower (h : Lower x d0 d) (i : Item) : Lower x d0 (leaveAtDue x i d) := h.setEm _
theorem putCell_lower (h : Lower x d0 d) (i : SlotNo) (pos : Nat) (c : Bytes) : Lower x d0 (putCell x i pos c d) := h.setEm _

theorem askEmit_lower (h : Lower x d0 d) : Lower x d0 (askEmit x d) := by
  unfold askEmit
  repeat' split
  all_goals first | exact h | exact ask_lower h _ _

theorem startReports_lower (h : Lower x d0 d) (k : ItemKind) : Lower x d0 (startReports x k d) := by
  unfold startReports
  split
  · exact sample_lower (reportStart_lower (count_lower h _ _) _) _
  · exact h

theorem beginSending_lower (h : Lower x d0 d) (i : Item) : Lower x d0 (beginSending x i d) :=
  askEmit_lower (Lower.setEm (leaveAtDue_lower (startReports_lower h _) i) _)

theorem discardItem_lower (h : Lower x d0 d) (i : Item) (n : Nat) (f : Fate) : Lower x d0 (discardItem x i n f d) := by
  unfold discardItem; dsimp only
  refine Lower.setEm ?_ _
  split
  · exact endFrame_lower (sample_lower (leaveAtDue_lower (count_lower h _ _) i) _) f _
  · exact leaveAtDue_lower (count_lower h _ _) i

theorem passGap_lower (h : Lower x d0 d) (i : Item) : Lower x d0 (passGap x i d) := (leaveAtDue_lower h i).setEm _

theorem handleItem_lower (h : Lower x d0 d) (i : Item) (t : Instant) : Lower x d0 (handleItem x i t d) := by
  unfold handleItem
  repeat' split
  · exact discardItem_lower h i _ _
  · exact discardItem_lower h i _ _
  · exact passGap_lower h i
  · exact discardItem_lower h i _ _
  · exact beginSending_lower h i
  · exact h.setEm _

theorem handleFrame_lower (h : Lower x d0 d) (i : SlotNo) (due : Due) : Lower x d0 (handleFrame x i due d) := handleItem_lower h _ _

theorem takeFrame_lower (h : Lower x d0 d) (i : SlotNo) (due : Due) : Lower x d0 (takeFrame x i due d) := by
  unfold takeFrame; dsimp only
  have h1 := beginLateFill_lower (setSlotState_lower (h.setEm { d.em with buffer := d.em.buffer.erase i }) i .emitting) i
  split
  · split
    · exact h1.setEm _
    · exact handleFrame_lower (endLateFill_lower h1 i) i due
  · exact handleFrame_lower (setSlotState_lower (h.setEm _) i _) i due

theorem takeGap_lower (h : Lower x d0 d) (g : GapFrame) : Lower x d0 (takeGap x g d) := handleItem_lower (h.setEm _) _ _

theorem serveLoop_lower : ∀ (n : Nat) (d : Device), Lower x d0 d → Lower x d0 (serveLoop x n d)
  | 0, _, h => h
  | n + 1, d, h => by
    unfold serveLoop
    repeat' split
    · exact h
    · exact serveLoop_lower n _ (takeGap_lower h _)
    · exact serveLoop_lower n _ (takeFrame_lower h _ _)
    · exact h
    · exact serveLoop_lower n _ (takeGap_lower h _)
    · exact h
    · exact serveLoop_lower n _ (takeFrame_lower h _ _)
    · exact h
    · exact h

theorem serveItems_lower (h : Lower x d0 d) : Lower x d0 (serveItems x d) := serveLoop_lower _ _ h

theorem afterModeChange_lower (h : Lower x d0 d) : Lower x d0 (afterModeChange x d) := by
  unfold afterModeChange
  repeat' split
  · exact h
  · exact serveItems_lower (handleItem_lower h _ _)
  · exact h

theorem skipCandidates_lower (h : Lower x d0 d) : Lower x d0 (skipCandidates x d) := by
  unfold skipCandidates
  split
  · exact h
  · exact h.setEm _

theorem bumpSent_lower (h : Lower x d0 d) : Lower x d0 (bumpSent d) := by
  unfold bumpSent
  split
  · exact h.setEm _
  · exact h

theorem deliverCell_lower (h : Lower x d0 d) (i : SlotNo) (pos : Nat) (c : Bytes) : Lower x d0 (deliverCell x i pos c d) := by
  unfold deliverCell
  split
  · exact bumpSent_lower (putCell_lower h i pos c)
  · exact h.setEm _

theorem releaseHeld_lower (h : Lower x d0 d) : Lower x d0 (releaseHeld x d) := by
  unfold releaseHeld
  repeat' split
  · exact bumpSent_lower (putCell_lower h _ _ _)
  · exact h
  · exact h

theorem endSending_lower (h : Lower x d0 d) : Lower x d0 (endSending x d) := by
  unfold endSending; dsimp only
  split
  · refine serveItems_lower (Lower.setEm ?_ _)
    split
    · exact endFrame_lower h _ _
    · exact h
  · exact h

theorem abandonItem_lower (h : Lower x d0 d) (f : Fate) : Lower x d0 (abandonItem x f d) := by
  unfold abandonItem; dsimp only
  refine Lower.setEm ?_ _
  split
  · exact endFrame_lower (dropFrameWork_lower h _ _) f _
  · exact h

theorem dropWaiting_lower (h : Lower x d0 d) (o : Due → Bool) : Lower x d0 (dropWaiting x o d) := by
  unfold dropWaiting
  repeat' split
  · exact serveItems_lower (discardItem_lower h _ _ _)
  · exact h
  · exact h

theorem afterSplice_lower (h : Lower x d0 d) (i : SlotNo) : Lower x d0 (afterSplice x i d) := by
  unfold afterSplice
  repeat' split
  · exact serveItems_lower (handleFrame_lower (endLateFill_lower h i) i _)
  · exact askSplice_lower h
  · exact askSplice_lower h

/-! ### Release -/

theorem admitFrame_lower (h : Lower x d0 d) (i : SlotNo) (due : Due) : Lower x d0 (admitFrame x i due d) :=
  spliceAdmission_lower (Lower.setEm (h.updSlot i _) _) i

theorem discardFrame_lower (h : Lower x d0 d) (i : SlotNo) : Lower x d0 (discardFrame x i d) :=
  spliceDiscard_lower (freeSlot_lower h i) _

theorem handOver_lower (h : Lower x d0 d) (i : SlotNo) : Lower x d0 (handOver x i d) := by
  unfold handOver; dsimp only
  split
  · exact admitFrame_lower (count_lower h _ _) i _
  · exact discardFrame_lower (count_lower h _ _) i

theorem removeFrame_lower (h : Lower x d0 d) (c : Bool) (f : Fate) (i : SlotNo) : Lower x d0 (removeFrame x c f i d) :=
  endFrame_lower (dropFrameWork_lower (h.setEm _) c i) f i

theorem reexamineStrict_lower (h : Lower x d0 d) : Lower x d0 (reexamineStrict x d) :=
  Lower.foldl (fun _ _ he => removeFrame_lower (count_lower he _ _) _ _ _) _ _ h

theorem reexamineFree_lower : ∀ (l : List SlotNo) (prev : Option Int) (d : Device), Lower x d0 d →
    Lower x d0 (reexamineFree x prev l d)
  | [], _, _, h => h
  | i :: l, prev, d, h => by
    unfold reexamineFree
    split
    · exact reexamineFree_lower l _ _ h
    · dsimp only
      split
      · exact reexamineFree_lower l _ _ (h.updSlot i _)
      · exact reexamineFree_lower l _ _ h

theorem closeEach_lower (p : ProgNo) : ∀ (l : List Break) (d : Device), Lower x d0 d →
    Lower x d0 (flushProgramme.closeEach x p l d)
  | [], _, h => h
  | _ :: l, _, h => closeEach_lower p l _ (closeBreak_lower h p _)

theorem flushProgramme_lower (h : Lower x d0 d) (lost : List Mark) (p : ProgNo) : Lower x d0 (flushProgramme x lost d p) :=
  (closeEach_lower p _ _ h).updProg p _ (by intro _; rfl)

theorem muteDrafts_lower (h : Lower x d0 d) : Lower x d0 (muteDrafts d) := h.setAsRun _ (by rfl)

theorem flushBuffer_lower (h : Lower x d0 d) : Lower x d0 (flushBuffer x d) := by
  unfold flushBuffer; dsimp only
  refine askSplice_lower (Lower.foldl (fun _ _ he => flushProgramme_lower he _ _) _ _ ?_)
  exact Lower.foldl (fun _ _ he => removeFrame_lower (count_lower he _ _) _ _ _) _ _ (abandonItem_lower (muteDrafts_lower h) _)

theorem takeNotice_lower (h : Lower x d0 d) (n : Notice) : Lower x d0 (takeNotice x n d) := by
  unfold takeNotice; dsimp only
  refine afterModeChange_lower ?_
  have h1 : Lower x d0 (if x.timing.mode == .sfnStrict && n.change == .lost then flushBuffer x d
    else if n.step.isNone then d
    else match x.timing.mode with
      | .sfnStrict => if x.tb.trusted then askSplice x (reexamineStrict x d) else d
      | .freeRun => reexamineFree x none d.em.buffer d) := by
    repeat' split
    · exact flushBuffer_lower h
    · exact h
    · exact askSplice_lower (reexamineStrict_lower h)
    · exact h
    · exact reexamineFree_lower _ _ _ h
  split
  · exact skipCandidates_lower h1
  · exact h1

theorem settleRestart_lower (h : Lower x d0 d) : Lower x d0 (settleRestart x d) :=
  Lower.foldl (fun _ i he => finishDraft_lower he i) _ _ (Lower.foldl (fun _ e he => settleEntry_lower he e) _ _
    (Lower.foldl (fun _ i he => freeSlot_lower he i) _ _ h))

theorem restartDrafts_lower (h : Lower x d0 d) : Lower x d0 (restartDrafts d) := h.setAsRun _ (by rfl)

/-- The emission unit's share of SiteRestart. -/
theorem emissionRestart_lower (h : Lower x d0 d) : Lower x d0 (emissionRestart x d) :=
  Lower.setEm (Lower.foldl (fun _ _ he => removeFrame_lower he _ _ _) _ _ (abandonItem_lower h _)) _

/-! ### The head at a candidate instant (R81) -/

theorem GapRef.candidate_unwrapped (x : Site) (g : GapRef) :
    (g.candidate x).unwrapped = g.due.unwrapped + (g.next * x.timing.period : Nat) := by
  simp only [GapRef.candidate, Due.plus, Due.unwrapped]; omega

/-- The head at a candidate instant is the head of the buffer, or the real frame in service, not yet sent, whose due instant is no
earlier. -/
theorem headAt_cases (d : Device) (a : Due) :
    headAt d a = headDue d
      ∨ ∃ i due, headAt d a = some (i, due) ∧ due.earlier a = false
        ∧ (d.em.item = some ⟨.real i, due, .waiting⟩ ∨ d.em.item = some ⟨.real i, due, .filling⟩) := by
  unfold headAt
  split
  · rename_i h; split <;> simp_all
  · rename_i h; split <;> simp_all
  · exact .inl rfl

end Sys2Proof.Machine
end

