-- ==== Sys2Proof/Laws/FramesIntake.lean ====
section
/-! SUPPORT. What the operations of the selector, the intakes, the catalogue and the ports keep: canonical site memory, the capacities of
the collections and FIFOs, the masks, and the summaries as the conditions give them. -/

namespace Sys2Proof.Machine

/-- What every operation on the device keeps, the summaries apart. -/
structure Held (d d' : Device) : Prop where
  mem : memWf d.mem = true → memWf d'.mem = true
  decided : d.sel.decided.length ≤ Config.decidedSize → d'.sel.decided.length ≤ Config.decidedSize
  table : d.sel.table.length ≤ Config.pairingSize → d'.sel.table.length ≤ Config.pairingSize
  fifoA : d.intakeA.fifo.length ≤ Config.intakeFifoSize → d'.intakeA.fifo.length ≤ Config.intakeFifoSize
  fifoB : d.intakeB.fifo.length ≤ Config.intakeFifoSize → d'.intakeB.fifo.length ≤ Config.intakeFifoSize
  load : d.cat.fifo.length ≤ Config.loadFifoSize → d'.cat.fifo.length ≤ Config.loadFifoSize
  queueNet : d.net.queue.length ≤ Config.inputQueueSize → d'.net.queue.length ≤ Config.inputQueueSize
  queueMaint : d.maint.queue.length ≤ Config.inputQueueSize → d'.maint.queue.length ≤ Config.inputQueueSize
  asrun : d.asrun.queue.length ≤ Config.asRunQueueSize → d'.asrun.queue.length ≤ Config.asRunQueueSize
  maskNet : d.net.mask &&& conditionBits = d.net.mask → d'.net.mask &&& conditionBits = d'.net.mask
  maskMaint : d.maint.mask &&& conditionBits = d.maint.mask → d'.maint.mask &&& conditionBits = d'.maint.mask
  cues : CuesOk d → CuesOk d'

/-- What every operation on the device keeps. -/
structure Upper (x : Site) (d d' : Device) : Prop extends Held d d' where
  summary : SummariesOk x d → SummariesOk x d'

variable {x : Site} {d d0 d' : Device}

theorem Held.refl (d : Device) : Held d d := ⟨id, id, id, id, id, id, id, id, id, id, id, id⟩
theorem Upper.refl (x : Site) (d : Device) : Upper x d d := ⟨Held.refl d, id⟩

theorem Held.trans (h : Held d0 d) (g : Held d d') : Held d0 d' :=
  ⟨g.mem ∘ h.mem, g.decided ∘ h.decided, g.table ∘ h.table, g.fifoA ∘ h.fifoA, g.fifoB ∘ h.fifoB, g.load ∘ h.load,
    g.queueNet ∘ h.queueNet, g.queueMaint ∘ h.queueMaint, g.asrun ∘ h.asrun, g.maskNet ∘ h.maskNet, g.maskMaint ∘ h.maskMaint,
    g.cues ∘ h.cues⟩

theorem Upper.trans (h : Upper x d0 d) (g : Upper x d d') : Upper x d0 d' := ⟨h.toHeld.trans g.toHeld, g.summary ∘ h.summary⟩

theorem Weak.held (h : Weak d d') : Held d d' := by
  have hn : d'.net.queue = d.net.queue ∧ d'.net.mask = d.net.mask := by rw [h.net]; exact ⟨rfl, rfl⟩
  have hm : d'.maint.queue = d.maint.queue ∧ d'.maint.mask = d.maint.mask := by rw [h.maint]; exact ⟨rfl, rfl⟩
  exact ⟨h.mem, by rw [h.sel]; exact id, by rw [h.sel]; exact id, by rw [h.intakeA]; exact id, by rw [h.intakeB]; exact id,
    by rw [h.load]; exact id, by rw [hn.1]; exact id, by rw [hm.1]; exact id, h.asrun, by rw [hn.2]; exact id,
    by rw [hm.2]; exact id, h.cues⟩

theorem Lower.upper (h : Lower x d d') : Upper x d d' := ⟨h.toWeak.held, h.summary⟩

/-- An operation below the selector after anything that keeps the laws. -/
theorem Upper.then (h : Upper x d0 d) (g : Lower x d d') : Upper x d0 d' := h.trans g.upper

theorem Upper.foldl {α : Type} {g : Device → α → Device} (hg : ∀ e a, Upper x d0 e → Upper x d0 (g e a)) :
    ∀ (l : List α) (d : Device), Upper x d0 d → Upper x d0 (l.foldl g d)
  | [], _, h => h
  | a :: l, _, h => Upper.foldl hg l _ (hg _ a h)

theorem refresh_upper (h : Held d0 d) : Upper x d0 (refresh x d) := by
  have g : Lower x d (refresh x d) := refresh_lower (Weak.refl d)
  exact ⟨h.trans g.toWeak.held, fun _ => ⟨refreshPort_summary _ _, refreshPort_summary _ _⟩⟩

theorem count_upper (h : Upper x d0 d) (cls : CountClass) (sub : Nat) : Upper x d0 (count x cls sub d) :=
  h.then (count_lower (Lower.refl x d) cls sub)

/-! ### The selector -/

/-- A selector replaced within its capacities. -/
theorem Upper.setSel (h : Upper x d0 d) (c : Selector)
    (hd : d.sel.decided.length ≤ Config.decidedSize → c.decided.length ≤ Config.decidedSize)
    (ht : d.sel.table.length ≤ Config.pairingSize → c.table.length ≤ Config.pairingSize) : Upper x d0 (d.setSel c) :=
  ⟨⟨h.mem, hd ∘ h.decided, ht ∘ h.table, h.fifoA, h.fifoB, h.load, h.queueNet, h.queueMaint, h.asrun, h.maskNet, h.maskMaint, h.cues⟩,
    h.summary⟩

theorem pushDecided_length (n : FrameNo) (l : List FrameNo) (h : l.length ≤ Config.decidedSize) :
    (pushDecided n l).length ≤ Config.decidedSize := by
  unfold pushDecided
  split <;> simp [Config.decidedSize] at * <;> omega

theorem decideNumber_upper (h : Upper x d0 d) (n : FrameNo) : Upper x d0 (decideNumber n d) :=
  h.setSel _ (pushDecided_length n _) (fun ht => Nat.le_trans (List.length_filter_le _ _) ht)

theorem chooseCopy_upper (h : Upper x d0 d) (n : FrameNo) (i : SlotNo) : Upper x d0 (chooseCopy x n i d) :=
  (decideNumber_upper h n).then (handOver_lower (Lower.refl x _) i)

theorem declareMissing_upper (h : Upper x d0 d) (n : FrameNo) : Upper x d0 (declareMissing x n d) :=
  count_upper (decideNumber_upper h n) _ _

theorem freeDuplicate_upper (h : Upper x d0 d) (i : SlotNo) : Upper x d0 (freeDuplicate x i d) :=
  h.then (freeSlot_lower (count_lower (Lower.refl x d) _ _) i)

theorem endWait_upper (h : Upper x d0 d) (e : PairEntry) : Upper x d0 (endWait x e d) := by
  unfold endWait
  split
  · exact chooseCopy_upper h _ _
  · exact declareMissing_upper h _

/-- The end of a wait leaves exactly the other numbers' entries. -/
theorem endWait_table (e : PairEntry) (d : Device) :
    (endWait x e d).sel.table = d.sel.table.filter (fun o => o.number != e.number) := by
  unfold endWait
  split
  · show (handOver x _ (decideNumber e.number d)).sel.table = _
    rw [(handOver_lower (Lower.refl x _) _).sel]
    rfl
  · show (count x .frameDecided 6 (decideNumber e.number d)).sel.table = _
    rw [(count_lower (Lower.refl x _) _ _).sel]
    rfl

theorem makeRoom_upper (h : Upper x d0 d) : Upper x d0 (makeRoom x d) := by
  unfold makeRoom
  split
  · exact h
  · split
    · exact endWait_upper h _
    · exact h

/-- There is room in the pairing table after room was made. -/
theorem makeRoom_room (h : d.sel.table.length ≤ Config.pairingSize) : (makeRoom x d).sel.table.length + 1 ≤ Config.pairingSize := by
  unfold makeRoom
  split
  · next ht => simp [ht, Config.pairingSize]
  · next e rest ht =>
    split
    · rw [endWait_table, ht]
      have hf : (List.filter (fun o => o.number != e.number) (e :: rest)) = rest.filter (fun o => o.number != e.number) := by simp
      rw [hf]
      have := List.length_filter_le (fun o : PairEntry => o.number != e.number) rest
      rw [ht] at h
      simp at h
      omega
    · omega

theorem createEntry_upper (h : Upper x d0 d) (e : PairEntry) : Upper x d0 (createEntry x e d) := by
  have hr := makeRoom_upper h
  have key := fun ht => makeRoom_room (x := x) (d := d) (h.table ht)
  refine ⟨⟨hr.mem, hr.decided, fun ht => ?_, hr.fifoA, hr.fifoB, hr.load, hr.queueNet, hr.queueMaint, hr.asrun, hr.maskNet,
    hr.maskMaint, hr.cues⟩, hr.summary⟩
  have := key ht
  simpa [createEntry] using this

theorem putEntry_upper (h : Upper x d0 d) (e : PairEntry) : Upper x d0 (putEntry e d) :=
  h.setSel _ id (fun ht => by simpa using ht)

theorem createDamaged_upper (h : Upper x d0 d) (n : FrameNo) (f : Feed) : Upper x d0 (createDamaged x n f d) := by
  unfold createDamaged; dsimp only
  split
  · exact endWait_upper (createEntry_upper h _) _
  · exact createEntry_upper h _

theorem takeDamaged_upper (h : Upper x d0 d) (n : FrameNo) (f : Feed) : Upper x d0 (takeDamaged x n f d) := by
  unfold takeDamaged
  repeat' split
  · exact createDamaged_upper h n f
  · exact chooseCopy_upper h n _
  · exact h
  · exact declareMissing_upper h n
  · exact h

theorem takeAtOnce_upper (h : Upper x d0 d) (n : FrameNo) (i : SlotNo) : Upper x d0 (takeAtOnce x n i d) := by
  unfold takeAtOnce; dsimp only
  refine chooseCopy_upper ?_ n i
  split
  · exact freeDuplicate_upper h _
  · exact h

theorem setSlotState_upper (h : Upper x d0 d) (i : SlotNo) (st : SlotState) : Upper x d0 (setSlotState i st d) :=
  h.then (setSlotState_lower (Lower.refl x d) i st)

theorem holdCopy_upper (h : Upper x d0 d) (n : FrameNo) (i : SlotNo) (e : Option PairEntry) : Upper x d0 (holdCopy x n i e d) := by
  unfold holdCopy; dsimp only
  repeat' split
  · exact chooseCopy_upper h n i
  · exact putEntry_upper (setSlotState_upper h i _) _
  · exact createEntry_upper (setSlotState_upper h i _) _

theorem takeSecondary_upper (h : Upper x d0 d) (n : FrameNo) (i : SlotNo) : Upper x d0 (takeSecondary x n i d) := by
  unfold takeSecondary
  repeat' split
  · exact takeAtOnce_upper h n i
  · exact holdCopy_upper h n i _
  · exact takeAtOnce_upper h n i
  · exact freeDuplicate_upper h i
  · exact holdCopy_upper h n i _

theorem takeCopy_upper (h : Upper x d0 d) (f : Feed) (i : SlotNo) (v : Bool) : Upper x d0 (takeCopy x f i v d) := by
  unfold takeCopy; dsimp only
  repeat' split
  · exact freeDuplicate_upper h i
  · exact takeDamaged_upper (h.then (freeSlot_lower (Lower.refl x d) i)) _ f
  · exact takeSecondary_upper h _ i
  · exact takeAtOnce_upper h _ i

theorem decideHeld_upper (h : Upper x d0 d) : Upper x d0 (decideHeld x d) :=
  Upper.foldl (fun _ _ he => endWait_upper he _) _ _ h

theorem selectorSyncLoss_upper (h : Upper x d0 d) (f : Feed) : Upper x d0 (selectorSyncLoss x f d) := by
  unfold selectorSyncLoss
  split
  · exact decideHeld_upper h
  · exact h

theorem selectorRestart_upper (h : Upper x d0 d) : Upper x d0 (selectorRestart d) := by
  unfold selectorRestart; dsimp only
  refine Upper.setSel (Upper.foldl (fun e a he => ?_) _ _ h) _ (fun _ => by simp) (fun _ => by simp)
  split
  · exact he.then (freeSlot_lower (Lower.refl x _) _)
  · exact he

/-! ### The intakes -/

/-- An intake replaced, within the capacity of its FIFO, the summaries apart. -/
theorem Held.setIntake (h : Held d0 d) (f : Feed) (i : Intake)
    (hi : (d.intake f).fifo.length ≤ Config.intakeFifoSize → i.fifo.length ≤ Config.intakeFifoSize) : Held d0 (d.setIntake f i) := by
  cases f
  · exact ⟨h.mem, h.decided, h.table, hi ∘ h.fifoA, h.fifoB, h.load, h.queueNet, h.queueMaint, h.asrun, h.maskNet, h.maskMaint, h.cues⟩
  · exact ⟨h.mem, h.decided, h.table, h.fifoA, hi ∘ h.fifoB, h.load, h.queueNet, h.queueMaint, h.asrun, h.maskNet, h.maskMaint, h.cues⟩

theorem conditionWord_setIntake (f : Feed) (i : Intake) (hs : i.inSync = (d.intake f).inSync) :
    conditionWord x (d.setIntake f i) = conditionWord x d := by
  cases f
  · have hs : i.inSync = d.intakeA.inSync := hs
    simp only [conditionWord, levelWord, outputMode, muteNoFeed, Device.setIntake, hs]; rfl
  · have hs : i.inSync = d.intakeB.inSync := hs
    simp only [conditionWord, levelWord, outputMode, muteNoFeed, Device.setIntake, hs]; rfl

/-- An intake replaced by one in SYNC or out of it as before. -/
theorem Upper.setIntake (h : Upper x d0 d) (f : Feed) (i : Intake)
    (hi : (d.intake f).fifo.length ≤ Config.intakeFifoSize → i.fifo.length ≤ Config.intakeFifoSize)
    (hs : i.inSync = (d.intake f).inSync) : Upper x d0 (d.setIntake f i) := by
  refine ⟨h.toHeld.setIntake f i hi, fun h0 => ?_⟩
  have := h.summary h0
  unfold SummariesOk at *
  rw [conditionWord_setIntake f i hs]
  simpa using this

theorem completeFrame_upper (h : Upper x d0 d) (f : Feed) (i : SlotNo) : Upper x d0 (completeFrame x f i d) := by
  unfold completeFrame; dsimp only
  refine takeCopy_upper (Upper.then ?_ (countComplete_lower (Lower.refl x _) f _)) f i _
  exact Upper.then (Upper.setIntake h f _ (by exact id) (by rfl)) (Lower.updSlot (Lower.refl x _) i _)

theorem checkComplete_upper (h : Upper x d0 d) (f : Feed) : Upper x d0 (checkComplete x f d) := by
  unfold checkComplete; dsimp only
  repeat' split
  · exact completeFrame_upper h f _
  · exact h
  · exact h
  · exact h

theorem arriveMarker_upper (h : Upper x d0 d) (f : Feed) (c : Bytes) : Upper x d0 (arriveMarker x f c d) := by
  unfold arriveMarker; dsimp only
  split
  · exact count_upper (Upper.setIntake h f _ (by exact id) (by rfl)) _ _
  · next hl => exact checkComplete_upper (Upper.setIntake h f _ (by intro _; simp; omega) (by rfl)) f

theorem arriveData_upper (h : Upper x d0 d) (f : Feed) (c : Bytes) : Upper x d0 (arriveData x f c d) := by
  unfold arriveData; dsimp only
  split
  · exact count_upper h _ _
  · split
    · exact checkComplete_upper (count_upper (Upper.setIntake h f _ (by exact id) (by rfl)) _ _) f
    · next hl => exact Upper.setIntake h f _ (by intro _; simp; omega) (by rfl)

theorem arriveCell_upper (h : Upper x d0 d) (f : Feed) (c : Bytes) : Upper x d0 (arriveCell x f c d) := by
  unfold arriveCell
  repeat' split
  · exact count_upper h _ _
  · exact count_upper h _ _
  · exact arriveMarker_upper h f c
  · exact arriveData_upper h f c

theorem enterSync_upper (h : Upper x d0 d) (f : Feed) : Upper x d0 (enterSync x f d) :=
  refresh_upper (Held.setIntake h.toHeld f _ id)

theorem leaveSync_upper (h : Upper x d0 d) (f : Feed) : Upper x d0 (leaveSync x f d) := by
  unfold leaveSync; dsimp only
  refine Upper.then (selectorSyncLoss_upper (checkComplete_upper (refresh_upper ?_) f) f) (afterModeChange_lower (Lower.refl x _))
  exact Held.setIntake h.toHeld f _ id

theorem delineate_upper (h : Upper x d0 d) (f : Feed) (b : Byte) : Upper x d0 (delineate x f d b) := by
  unfold delineate; dsimp only
  split
  · next hs =>
    split
    · exact Upper.setIntake h f _ (by exact id) (by simp [Intake.inSync, hs])
    · exact h
  · next hs =>
    repeat' split
    · exact Upper.setIntake h f _ (by exact id) (by simp [Intake.inSync, hs])
    · exact enterSync_upper h f
    · exact Upper.setIntake h f _ (by exact id) (by simp [Intake.inSync, hs])
    · exact Upper.setIntake h f _ (by exact id) (by simp [Intake.inSync, hs])
  · exact h

theorem joinCell_upper (h : Upper x d0 d) (f : Feed) (bs : Bytes) : Upper x d0 (joinCell x f bs d) := by
  unfold joinCell endPosition; dsimp only
  repeat' split
  · exact Upper.setIntake h f _ (by exact id) (by rfl)
  · exact arriveCell_upper (Upper.setIntake h f _ (by exact id) (by rfl)) f _
  · exact count_upper (Upper.setIntake h f _ (by exact id) (by rfl)) _ _

theorem cellPosition_upper (h : Upper x d0 d) (f : Feed) (bs : Bytes) : Upper x d0 (cellPosition x f bs d) := by
  unfold cellPosition; dsimp only
  have h0 : Upper x d0 (updIntake f (fun i => { i with silence := 0 }) d) := Upper.setIntake h f _ (by exact id) (by rfl)
  repeat' split
  · exact joinCell_upper h0 f bs
  · exact joinCell_upper (Upper.setIntake h0 f _ (by exact id) (by rfl)) f bs
  · exact Upper.foldl (fun _ _ he => delineate_upper he f _) _ _ (leaveSync_upper h0 f)

theorem closeAssembly_upper (h : Upper x d0 d) (f : Feed) : Upper x d0 (closeAssembly x f d) := by
  unfold closeAssembly
  repeat' split
  · exact h
  · exact completeFrame_upper h f _
  · exact Upper.setIntake h f _ (by exact id) (by rfl)

theorem fifo_drop {α : Type} {n : Nat} (l : List α) (k : Nat) (h : l.length ≤ n) : (l.drop k).length ≤ n := by
  simp; omega

theorem openFrame_upper (h : Upper x d0 d) (f : Feed) (c : Bytes) : Upper x d0 (openFrame x f c d) := by
  unfold openFrame; dsimp only
  refine checkComplete_upper ?_ f
  split
  · exact Upper.setIntake (h.then (Lower.updSlot (Lower.refl x d) _ _)) f _ (by exact fifo_drop _ 1) (by rfl)
  · exact Upper.setIntake h f _ (by exact fifo_drop _ 1) (by rfl)

theorem popFifo_upper (h : Upper x d0 d) (f : Feed) : Upper x d0 (popFifo f d) := Upper.setIntake h f _ (by exact fifo_drop _ 1) (by rfl)

theorem checkContinuity_upper (h : Upper x d0 d) (f : Feed) (a : Assembly) (hd : Header) : Upper x d0 (checkContinuity x f a hd d) := by
  unfold checkContinuity; dsimp only
  have h1 : ∀ e : Device, Upper x d0 e → Upper x d0 (updIntake f (fun i =>
      { i with continuity := i.continuity.filter (fun c => c.1 != hd.sid) ++ [(hd.sid, hd.cont + 1)] }) e) :=
    fun e he => Upper.setIntake he f _ (by exact id) (by rfl)
  split
  · refine h1 _ ?_
    repeat' split
    all_goals first
      | exact count_upper h _ _
      | exact h
  · exact h

theorem extractCue_upper (h : Upper x d0 d) (i : SlotNo) (a : Assembly) (hd : Header) (c : Bytes) :
    Upper x d0 (extractCue x i a hd c d) := by
  unfold extractCue
  repeat' split
  · exact h.then (Lower.updSlot (Lower.refl x d) i _)
  · exact count_upper h _ _
  · exact h

/-! ### The load FIFO -/

theorem Upper.setCat (h : Upper x d0 d) (c : Catalogue)
    (hc : d.cat.fifo.length ≤ Config.loadFifoSize → c.fifo.length ≤ Config.loadFifoSize) : Upper x d0 (d.setCat c) :=
  ⟨⟨h.mem, h.decided, h.table, h.fifoA, h.fifoB, hc ∘ h.load, h.queueNet, h.queueMaint, h.asrun, h.maskNet, h.maskMaint, h.cues⟩, h.summary⟩

theorem updClip_upper (h : Upper x d0 d) (id : ClipId) (g : ClipRecord → ClipRecord) : Upper x d0 (updClip id g d) :=
  h.then (updClip_lower (Lower.refl x d) id g)

theorem askLoad_upper (h : Upper x d0 d) : Upper x d0 (askLoad x d) := h.then (askLoad_lower (Lower.refl x d))

theorem takeCell_upper (h : Upper x d0 d) (c : CtxNo) (cell : Bytes)
    (hr : d.cat.fifo.length + 1 ≤ Config.loadFifoSize) : Upper x d0 (takeCell c cell d) := by
  unfold takeCell
  split
  · exact h
  · exact h.setCat _ (fun _ => by simpa using hr)

theorem takeCell_fifo (c : CtxNo) (cell : Bytes) (d : Device) : (takeCell c cell d).cat.fifo.length ≤ d.cat.fifo.length + 1 := by
  unfold takeCell
  split <;> simp

/-- A load cell at the FIFO's door: lost at a full FIFO, taken otherwise. -/
theorem loadTail_upper (h : Upper x d0 d) (c : CtxNo) (id : ClipId) (g : ClipRecord → ClipRecord) (cell : Bytes) :
    Upper x d0 (if Config.loadFifoSize ≤ d.cat.fifo.length then updClip id g d else askLoad x (takeCell c cell d)) := by
  split
  · exact updClip_upper h _ _
  · exact askLoad_upper (takeCell_upper h c _ (by omega))

theorem judgeLoadCell_upper (h : Upper x d0 d) (c : CtxNo) (cell : Bytes) : Upper x d0 (judgeLoadCell x c cell d) := by
  unfold judgeLoadCell; dsimp only
  split
  · exact h
  · split
    · exact updClip_upper h _ _
    · split
      · exact updClip_upper h _ _
      · refine loadTail_upper (Upper.then ?_ (setCtx_lower (Lower.refl x _) c _)) c _ _ _
        repeat' split
        all_goals first
          | exact updClip_upper h _ _
          | exact h

theorem offerLoadCell_upper (h : Upper x d0 d) (f : Feed) (cell : Bytes) : Upper x d0 (offerLoadCell x f cell d) := by
  unfold offerLoadCell
  split
  · exact count_upper h _ _
  · exact judgeLoadCell_upper h _ _

theorem applyWindows_upper (h : Upper x d0 d) (f : Feed) (a : Assembly) (pos : Nat) (c : Bytes) :
    Upper x d0 (applyWindows x f a pos c d).2 := by
  unfold applyWindows
  split
  · exact h
  · exact count_upper h _ _
  · exact offerLoadCell_upper h f c

theorem acceptCell_upper (h : Upper x d0 d) (f : Feed) (i : SlotNo) (a : Assembly) (c : Bytes) : Upper x d0 (acceptCell x f i a c d) := by
  unfold acceptCell; dsimp only
  have h1 := applyWindows_upper (extractCue_upper (checkContinuity_upper (h.then (Lower.updSlot (Lower.refl x d) i (fun r =>
    { r with
      running := frameCheckMore r.running c
      damage := { r.damage with missing := r.damage.missing || a.next < (parseHeader c).index.toNat } }))) f a (parseHeader c)) i a
        (parseHeader c) c) f a (parseHeader c).index.toNat c
  have h2 := fun w => Upper.setIntake h1 f { (applyWindows x f a (parseHeader c).index.toNat c _).2.intake f with assembly := w } id rfl
  split
  · exact (h2 _).then (ask_lower (Lower.refl x _) _ _)
  · exact h2 _

theorem headCell_upper (h : Upper x d0 d) (f : Feed) (c : Bytes) : Upper x d0 (headCell x f c d) := by
  unfold headCell; dsimp only
  repeat' split
  · exact count_upper (popFifo_upper h f) _ _
  · exact count_upper (popFifo_upper h f) _ _
  · exact checkComplete_upper (popFifo_upper (h.then (Lower.updSlot (Lower.refl x d) _ _)) f) f
  · exact acceptCell_upper h f _ _ c

theorem store_upper (h : Upper x d0 d) (t : Target) : Upper x d0 (d.store t) := h.then (Lower.store (Lower.refl x d) t)

theorem intakeWrite_upper (h : Upper x d0 d) (f : Feed) (i : SlotNo) : Upper x d0 (intakeWrite f i d) := by
  unfold intakeWrite; dsimp only
  repeat' split
  · exact h
  · exact h
  · refine popFifo_upper (Upper.setIntake (h.then (Lower.updSlot (Lower.refl x d) i _)) f _ ?_ ?_) f
    · exact id
    · rfl

theorem intakeRestart_held (h : Held d0 d) (f : Feed) : Held d0 (intakeRestart d f) := by
  unfold intakeRestart; dsimp only
  refine Held.setIntake ?_ f _ (fun _ => by simp [Intake.reset])
  split
  · exact h.trans (freeSlot_lower (Lower.refl State.reset.site d) _).toWeak.held
  · exact h

/-! ### Loads -/

theorem loadCellDone_upper (h : Upper x d0 d) : Upper x d0 (loadCellDone x d) := by
  unfold loadCellDone; dsimp only
  split
  · exact h
  · next e rest hf =>
    have h1 : Upper x d0 (d.setCat { d.cat with fifo := rest }) :=
      h.setCat _ (fun hl => by rw [hf] at hl; simp at hl; simp; omega)
    repeat' split
    · exact h1
    · exact updClip_upper (h1.then (setCtx_lower (Lower.refl x _) _ _)) _ _
    · exact (updClip_upper (h1.then (setCtx_lower (Lower.refl x _) _ _)) _ _).then (finishLoad_lower (Lower.refl x _) _ _)
    · exact updClip_upper (h1.then (setCtx_lower (Lower.refl x _) _ _)) _ _

theorem dropDeadEntry_upper (h : Upper x d0 d) : Upper x d0 (dropDeadEntry d) := by
  unfold dropDeadEntry
  split
  · exact h
  · next hf =>
    split
    · exact h
    · exact h.setCat _ (fun hl => by rw [hf] at hl; simp at hl; simp; omega)

theorem dropLoadEntries_length (c : CtxNo) (b : Bool) (l : List LoadEntry) : (dropLoadEntries c b l).length ≤ l.length := by
  cases l with
  | nil => rfl
  | cons e l =>
    unfold dropLoadEntries; dsimp only
    have := List.length_filter_le (fun e : LoadEntry => !(e.live && e.ctx == c)) l
    repeat' split
    all_goals simp only [List.length_cons]; omega

theorem abortLoad_upper (h : Upper x d0 d) (i : PlaceNo) : Upper x d0 (abortLoad i d) := by
  unfold abortLoad; dsimp only
  split
  · exact h
  · refine Upper.then (d := returnBlocks _ _) (Upper.then (d := _) ?_ (returnBlocks_lower (Lower.refl x _) _)) (setPlace_lower (Lower.refl x _) _ _)
    split
    · exact h
    · exact h.setCat _ (fun hl => Nat.le_trans (dropLoadEntries_length _ _ _) hl)

theorem abortLoads_upper (h : Upper x d0 d) : Upper x d0 (abortLoads d) := by
  unfold abortLoads; dsimp only
  refine Upper.setCat (Upper.foldl (fun e i he => ?_) _ _ h) _ (fun _ => by simp)
  split
  · exact abortLoad_upper he i
  · exact he

/-! ### The ports -/

/-- A port replaced with no longer queue and a mask without stray bits, the summaries apart. -/
theorem Held.setPort (h : Held d0 d) (p : Port) (q : PortState)
    (hq : (d.port p).queue.length ≤ Config.inputQueueSize → q.queue.length ≤ Config.inputQueueSize)
    (hm : (d.port p).mask &&& conditionBits = (d.port p).mask → q.mask &&& conditionBits = q.mask) : Held d0 (d.setPort p q) := by
  cases p
  · exact ⟨h.mem, h.decided, h.table, h.fifoA, h.fifoB, h.load, hq ∘ h.queueNet, h.queueMaint, h.asrun, hm ∘ h.maskNet, h.maskMaint, h.cues⟩
  · exact ⟨h.mem, h.decided, h.table, h.fifoA, h.fifoB, h.load, h.queueNet, hq ∘ h.queueMaint, h.asrun, h.maskNet, hm ∘ h.maskMaint, h.cues⟩

/-- A port replaced by one with the same mask and summary. -/
theorem Upper.setPort (h : Upper x d0 d) (p : Port) (q : PortState)
    (hq : (d.port p).queue.length ≤ Config.inputQueueSize → q.queue.length ≤ Config.inputQueueSize)
    (hm : q.mask = (d.port p).mask) (hs : q.summary = (d.port p).summary) : Upper x d0 (d.setPort p q) := by
  refine ⟨h.toHeld.setPort p q hq (by rw [hm]; exact id), fun h0 => ?_⟩
  have := h.summary h0
  unfold SummariesOk PortState.summaryOk at *
  rw [conditionWord_setPort]
  cases p
  · refine ⟨?_, this.2⟩
    show q.summary = (conditionWord x d &&& q.mask != 0)
    rw [hm, hs]; exact this.1
  · refine ⟨this.1, ?_⟩
    show q.summary = (conditionWord x d &&& q.mask != 0)
    rw [hm, hs]; exact this.2

theorem setRx_upper (h : Upper x d0 d) (p : Port) (r : Receiver) : Upper x d0 (d.setRx p r) := Upper.setPort h p _ (by exact id) (by rfl) rfl

theorem dropFrame_upper (h : Upper x d0 d) (p : Port) : Upper x d0 (dropFrame x p d) := count_upper (setRx_upper h p _) _ _

theorem offerRequest_upper (h : Upper x d0 d) (p : Port) (r : Request) : Upper x d0 (offerRequest x p r d) := by
  unfold offerRequest
  split
  · next hl => exact Upper.setPort h p _ (fun _ => by simp; omega) rfl rfl
  · exact count_upper h _ _

theorem judgeFrame_upper (h : Upper x d0 d) (p : Port) (bs : Bytes) : Upper x d0 (judgeFrame x p bs d) := by
  unfold judgeFrame; dsimp only
  split
  · exact offerRequest_upper (setRx_upper h p _) p _
  · exact dropFrame_upper h p

theorem rxByte_upper (h : Upper x d0 d) (p : Port) (b : Byte) : Upper x d0 (rxByte x p d b) := by
  unfold rxByte; dsimp only
  repeat' split
  all_goals first
    | exact h
    | exact setRx_upper h p _
    | exact dropFrame_upper h p
    | exact judgeFrame_upper h p _

end Sys2Proof.Machine
end

