-- ==== Sys2Proof/Tests/Slice0.lean ====
section
/-! SUPPORT. Tests: the smoke test of WellFormed, results the manual or the definition of a check code gives, and for every statement with
hypotheses a witness, a concrete state and operands that meet them. -/

set_option Elab.async false
set_option maxRecDepth 20000

namespace Sys2Proof.Tests

open Sys2Proof Sys2Proof.Machine

/-! ### WellFormed and the table's words -/

theorem test_run_of_a_cell_position_is_well_formed :
    (Instr.feedCellPosition .a (List.replicate 176 0)).wellFormed = true ∧ (Instr.feedCellPosition .a [0xB8]).wellFormed = true := by decide

theorem test_empty_run_of_a_cell_position_is_refused : (Instr.feedCellPosition .a []).wellFormed = false := by decide

theorem test_long_run_of_a_cell_position_is_refused : (Instr.feedCellPosition .b (List.replicate 177 0)).wellFormed = false := by decide

theorem test_empty_arrival_is_refused : (Instr.mgmtFrameReceived .network []).wellFormed = false := by decide

theorem test_overlong_arrival_is_refused : (Instr.mgmtFrameReceived .network (List.replicate 1032 0)).wellFormed = false := by
  decide +kernel

theorem test_longest_frame_is_well_formed : (Instr.mgmtFrameReceived .network (List.replicate 1031 0)).wellFormed = true := by
  decide +kernel

theorem test_empty_length_bytes_are_refused : (Instr.bodyLengthOverLimit .maintenance []).wellFormed = false := by decide

/-- The opcode table gives its rows no bits, so no word spells a command. -/
theorem test_no_word_spells_a_command : decodeTableWord 8 0x01 = none ∧ (State.reset.withFetchWord 16 0xFFFF).pending = [] := by
  decide +kernel

/-! ### Check codes: the published check values of the three codes over the bytes of "123456789" -/

/-- The bytes of "123456789". -/
def digits : Bytes := [0x31, 0x32, 0x33, 0x34, 0x35, 0x36, 0x37, 0x38, 0x39]

theorem test_header_check_value : headerCheck digits = 0xF4 := by decide +kernel

theorem test_link_check_value : linkCheck digits = 0x29B1 := by decide +kernel

theorem test_frame_check_value : frameCheckMore frameCheckInit digits = 0x0376E6E7 := by decide +kernel

/-- A check over no bytes equals its initial value (section 1.1). -/
theorem test_empty_checks : headerCheck [] = 0 ∧ linkCheck [] = 0xFFFF ∧ frameCheckMore frameCheckInit [] = 0xFFFFFFFF := by
  decide +kernel

/-! ### Small states -/

/-- A request with tag 7. -/
def req (kind : Byte) (body : Bytes) : Request := ⟨kind, 7, body⟩

/-- The state with its device changed. -/
def withDev (f : Device → Device) (s : State) : State := s.setDev (f s.dev)

/-- The state with its site changed. -/
def withSite (f : Site → Site) (s : State) : State := s.setSite (f s.site)

/-- The state with its timebase changed. -/
def withTb (f : Timebase → Timebase) (s : State) : State := s.setTb (f s.site.tb)

/-- A device in RUNNING, everything else as after the reset line. -/
def running : State := withSite (fun x => { x with phase := .running }) State.reset

/-- The state with one port changed. -/
def withPort (p : Port) (f : PortState → PortState) (s : State) : State := withDev (fun d => d.setPort p (f (d.port p))) s

/-- The state with a request in service on a port, taken without refusal. -/
def inService (p : Port) (r : Request) (s : State) : State := withPort p (fun x => { x with service := some ⟨r, none⟩ }) s

/-- A request of kind `k` with code `code` and body `body` is in service on port `p` of a state made from `s`. -/
abbrev AsksOn (p : Port) (k : Kind) (code : Byte) (body : Bytes) (s : State) : Prop :=
  Serving k p (req code body) (inService p (req code body) s) ∧ (req code body).body = body

/-- The same on the network port. -/
abbrev Asks (k : Kind) (code : Byte) (body : Bytes) (s : State) : Prop := AsksOn .network k code body s

/-- The state with a catalogue record at place 3. -/
def withClip (c : ClipRecord) (s : State) : State :=
  withDev (fun d => d.setCat { d.cat with places := d.cat.places.set 3 (some c) }) s

/-- A record of clip 501, one block, in a state. -/
def clip501 (st : ClipState) : ClipRecord := { ClipRecord.fresh 501 with state := st, length := 50, blocks := [9] }

/-! ### Results -/

/-- A request frame received on a line comes into service, and ReadIdentity draws its fixed figures (R170, R182). -/
theorem test_identity_over_the_line :
    (match exec (.mgmtFrameReceived .network (requestFrame 0x02 0x55 [])) State.reset with
      | .next s => match exec (.readIdentity .network) s with
        | .next t => t.dev.net.tx.sending.map (fun f => (f.kind, f.tag, f.body.take 3, f.body.length))
        | _ => none
      | _ => none) = some (0x82, 0x55, [0x00, 0x26, 0x40], 21) := by decide +kernel

/-- A frame with one bit of its check wrong is dropped (R9). -/
theorem test_wrong_link_check_is_dropped :
    (match exec (.mgmtFrameReceived .network [0xA5, 0, 0, 0x02, 0x55, 0x00, 0x01]) State.reset with
      | .next s => s.dev.net.service.isNone && s.dev.net.rx.state == .seek
      | _ => false) = true := by decide +kernel

/-- SetMask selects TIME_STEP and FEED_A_DOWN; feed A is down after reset, so an Attention leaves (R179, R180; FEED_A_DOWN is bit 0 and
FEED_B_DOWN bit 1, REF_LOSS bit 2, TIME_UNTRUSTED bit 3, OUTPUT_NOT_ON_AIR bit 4). -/
theorem test_mask_raises_attention :
    (match exec (.setMask .maintenance) (inService .maintenance (req 0x03 [0x08, 0x01]) State.reset) with
      | .next t => t.dev.maint.tx.sending.map (·.body)
      | _ => none) = some [0x00, 0x1F, 0x08, 0x01] := by decide +kernel

/-- The last tick of a second makes the boundary, and the pair wraps (R49). -/
theorem test_second_boundary :
    (match exec .secondBoundary (withTb (fun tb => { tb with secs := 0xFFFFFFFF, ticks := 9999999 }) State.reset) with
      | .next t => (t.site.tb.secs, t.site.tb.ticks)
      | _ => (1, 1)) = (0, 0) := by decide +kernel

/-- Decision 1 of section 6.6: INTAKE_B at 1 and SPLICE at 3 wait; INTAKE_B is granted and SPLICE improves to 2. -/
theorem test_first_decision :
    (match exec .loadBurstComplete (withDev (fun d => d.setArb { d.arb with
        current := some ⟨.load, .block 0 0 [], false⟩
        waiting := #v[none, none, some (.intake 4 0 []), some (.splice 5 0 1 []), none] }) State.reset) with
      | .next t => (t.dev.arb.current.map (·.req), t.dev.arb.effective.toList)
      | _ => (none, [])) = (some .intakeB, [0, 1, 1, 2, 6]) := by decide +kernel

/-- The stamp of a gap frame's marker for a total of 300 seconds and 7 ticks: 300 mod 256 = 44 seconds and 7 ticks, count 0, check over no
bytes, GAP set (R6). -/
theorem test_gap_marker :
    (parseMarker (gapMarker 5 3000000007)) = ⟨5, 44, 7, 0, 0xFFFFFFFF, true⟩ := by decide +kernel

/-- Clip 502 of section 6.2: of 9,000 clip cells, cell 8,999 lies in its third block at position 807. -/
theorem test_clip_cell_position : clipPlace [1, 2, 3] 8999 = some (3, 807) := by decide +kernel

/-- A frame number counts as after another up to 8,388,607 ahead of it, modulo 2^24 (00_scope.md, section 5). -/
theorem test_frame_order :
    isAfter 0 0xFFFFFF = true ∧ isAfter 8388607 0 = true ∧ isAfter 8388608 0 = false ∧ isAfter 5 5 = false := by decide +kernel

/-- With an empty queue and nothing to do a tick passes; a refused request is answered first (entries 1 and 4). -/
theorem test_idle_steps :
    (match step State.reset with | .next t => t.site.tb.ticks | _ => 7) = 1
      ∧ (match step (withPort .network (fun x => { x with service := some ⟨req 0x70 [], some .unknownKind⟩ }) State.reset) with
          | .next t => t.pending | _ => []) = [.unknownKind .network] := by decide +kernel

/-! ### Witnesses: the machine as a whole, formats and ports -/

theorem witness_IdleStepIsOneTick :
    State.reset.pending = [] ∧ eventNow State.reset = none ∧ State.reset.site.tb.ticks + 1 ≠ 10000000
      ∧ (let s := withTb (fun tb => { tb with ticks := 9999998 }) State.reset
         s.pending = [] ∧ eventNow s = none ∧ s.site.tb.ticks + 1 ≠ 10000000) := by decide +kernel

/-- Lockout on, control with the network port, and a step that answers next. -/
theorem witness_LockoutLawKept :
    let s := { inService .network (req 0x08 [1]) State.reset with pending := [.setLockout .network], lockout := true }
    LockoutLaw s ∧ s.lockout = true ∧ ∃ t, step s = .next t := ⟨by decide +kernel, rfl, _, rfl⟩

/-- An intake whose burst of a short cell is in progress, over a memory with a byte. -/
def bursting : State :=
  withDev (fun d => { d with
    mem := [(5, 1)]
    arb := { d.arb with current := some ⟨.intakeA, .intake 0 0 [1, 2], true⟩ }
    intakeA := { d.intakeA with
      fifo := [.data [1, 2]], arrivals := [⟨1, false, false, false⟩]
      assembly := some ⟨some 0, 2, running.site.windows, .carry, [], some ⟨1, 7, .payload, none, false⟩⟩ } }) running

theorem witness_MemoryLawKept :
    let s := { bursting with pending := [.intakeBurstComplete .a] }
    MemoryLaw s ∧ ∃ t, step s = .next t := ⟨by decide +kernel, _, rfl⟩

theorem witness_CapacityLawsKept :
    ClockLaw State.reset ∧ SelectorLaw State.reset ∧ FifoLaw State.reset ∧ InputQueueLaw State.reset ∧ AsRunLaw State.reset
      ∧ LoadFifoLaw State.reset ∧ CueLaw State.reset ∧ ∃ t, step State.reset = .next t :=
  ⟨by decide, by decide, by decide, by decide, by decide, by decide, by decide +kernel, _, rfl⟩

theorem witness_SummaryLawKept :
    let s := { inService .network (req 0x03 [1, 1]) State.reset with pending := [.setMask .network] }
    SummaryLaw s ∧ MaskLaw s ∧ ∃ t, step s = .next t := ⟨by decide +kernel, by decide +kernel, _, rfl⟩

theorem witness_FormedHeaderReadsBack :
    (let h : Header := ⟨4095, .marker, true, 15, 255, 0⟩
     (h.sid = 4095#12 ↔ h.qual = .marker) ∧ (h.sid = 4095#12 ∨ (1 ≤ h.index.toNat ∧ h.index.toNat ≤ 256)))
    ∧ (let h : Header := ⟨0, .payload, false, 0, 0, 1⟩
       (h.sid = 4095#12 ↔ h.qual = .marker) ∧ (h.sid = 4095#12 ∨ (1 ≤ h.index.toNat ∧ h.index.toNat ≤ 256)))
    ∧ (let h : Header := ⟨4094, .null, false, 0, 0, 256⟩
       (h.sid = 4095#12 ↔ h.qual = .marker) ∧ (h.sid = 4095#12 ∨ (1 ≤ h.index.toNat ∧ h.index.toNat ≤ 256))) := by decide

theorem witness_WrittenRunReadsBack : memWf [(5, 1), (9, 2)] = true := by decide

/-- A port with a request in service and `n` more queued. -/
def queued (n : Nat) : State :=
  withPort .network (fun x => { x with queue := List.replicate n (req 0x01 []) }) (inService .network (req 0x02 []) State.reset)

theorem witness_RequestFrameReceived :
    (∀ n ∈ [0, 3, 4, 5], ((queued n).dev.port .network).rx.state = .seek ∧ ((queued n).dev.port .network).service.isSome = true)
      ∧ ((queued 3).dev.port .network).queue.length < 4 ∧ 4 ≤ ((queued 4).dev.port .network).queue.length
      ∧ (List.replicate 1024 (0 : Byte)).length ≤ 1024 ∧ (0x7F : Byte).getLsbD 7 = false
      ∧ (State.reset.dev.port .network).rx.state = .seek ∧ (State.reset.dev.port .network).service = none
      ∧ (State.reset.dev.port .network).queue = [] ∧ (State.reset.dev.port .network).tx.holdsReply = false := by decide +kernel

/-- The network port inside a frame, silent for `n` ticks. -/
def inFrame (n : Nat) : State := withPort .network (fun x => { x with rx := ⟨.header, [0, 0], n⟩ }) State.reset

theorem witness_BrokenFrameDropped :
    ((State.reset.dev.port .network).rx.state = .seek ∧ NothingToTake .network State.reset
        ∧ 1024 < (0x04 : Byte).toNat * 256 + (0x01 : Byte).toNat)
      ∧ ((inFrame 0).dev.port .network).rx.state ≠ .seek
      ∧ (((inFrame 1000000).dev.port .network).rx.state ≠ .seek
        ∧ 1000000 ≤ ((inFrame 1000000).dev.port .network).rx.silence)
      ∧ ((0x80 : Byte).getLsbD 7 = true ∧ (0xFF : Byte).getLsbD 7 = true
        ∧ (0 : BitVec 16) ≠ linkCheck (beBytes 2 ([] : Bytes).length ++ [0x02, 0x55] ++ [])) := by decide +kernel

/-- The network port sending a reply, with frames waiting, requests queued and perhaps one in service. -/
def sending (w : List TxFrame) (q : List Request) (v : Option Service) : State :=
  withPort .network (fun x => { x with tx := ⟨some ⟨false, 0x81, 7, [0]⟩, w⟩, queue := q, service := v }) State.reset

theorem witness_FrameSentStartsNext :
    let g : TxFrame := ⟨true, 0x70, 0, [0, 1, 0, 1]⟩
    (let s := sending [g] [] (some ⟨req 0x01 [], none⟩)
     (s.dev.port .network).tx.sending = some ⟨false, 0x81, 7, [0]⟩ ∧ (s.dev.port .network).tx.waiting = g :: []
       ∧ (s.dev.port .network).service.isSome = true)
    ∧ (let s := sending [g] [req 0x01 []] none
       (s.dev.port .network).tx.sending = some ⟨false, 0x81, 7, [0]⟩ ∧ (s.dev.port .network).tx.waiting = g :: []
         ∧ (s.dev.port .network).service = none ∧ (s.dev.port .network).queue = req 0x01 [] :: [] ∧ ∀ h ∈ [g], h.attention = true)
    ∧ (let s := sending [] [] none
       (s.dev.port .network).tx.sending = some ⟨false, 0x81, 7, [0]⟩ ∧ (s.dev.port .network).tx.waiting = []
         ∧ (s.dev.port .network).queue = [])
    ∧ (let s := sending [] [req 0x01 []] none
       (s.dev.port .network).tx.sending = some ⟨false, 0x81, 7, [0]⟩ ∧ (s.dev.port .network).tx.waiting = []
         ∧ (s.dev.port .network).service = none ∧ (s.dev.port .network).queue = req 0x01 [] :: []) := by decide +kernel

/-- The network port with a request in service that was refused when it was taken. -/
def refused (r : Request) (st : Status) : State := withPort .network (fun x => { x with service := some ⟨r, some st⟩ }) State.reset

theorem witness_RequestsAreChecked :
    kindOf 0x00 = none ∧ kindOf 0x70 = none ∧ kindOf 0x54 = none
      ∧ (kindOf 0x01 = some .readStatus ∧ Kind.readStatus.lengthOk 1 = false)
      ∧ (kindOf 0x05 = some .takeLocal ∧ Kind.takeLocal.lengthOk 0 = true ∧ Kind.takeLocal.portOk .network = false)
      ∧ (kindOf 0x09 = some .release ∧ Kind.release.lengthOk 0 = true ∧ Kind.release.portOk .network = true
        ∧ Kind.release.phaseRefusal .running [] = some .wrongState)
      ∧ (kindOf 0x53 = some .clearCounters ∧ Kind.clearCounters.lengthOk 1 = true ∧ Kind.clearCounters.portOk .maintenance = true
        ∧ Kind.clearCounters.phaseRefusal .held [1] = none ∧ Kind.clearCounters.needsControl = true
        ∧ Control.network.port ≠ .maintenance ∧ Control.network.port = .network)
      ∧ ((refused (req 0x01 [1]) .badLength).dev.port .network).service = some ⟨req 0x01 [1], some .badLength⟩
      ∧ ((refused (req 0x70 []) .unknownKind).dev.port .network).service = some ⟨req 0x70 [], some .unknownKind⟩ := by decide +kernel

/-- The hypotheses of `Kind.Received`, for each kind a statement says it of: a request of the kind with a body of its length and one of
another, and a refused one in service. -/
theorem witness_Received :
    ∀ k ∈ [(Kind.readIdentity, 0x02#8, 0), (.readStatus, 0x01#8, 0), (.clearConditions, 0x04#8, 2), (.setSelector, 0x18#8, 5),
        (.setSlot, 0x40#8, 7), (.setCounter, 0x51#8, 3), (.snapshotCounters, 0x52#8, 0), (.clearCounters, 0x53#8, 1),
        (.asRunFetch, 0x50#8, 1), (.clipDelete, 0x3B#8, 2)],
      kindOf (req k.2.1 (List.replicate k.2.2 0)).kind = some k.1 ∧ (req k.2.1 (List.replicate k.2.2 0)).body.length = k.2.2
        ∧ (req k.2.1 (List.replicate (k.2.2 + 1) 0)).body.length ≠ k.2.2
        ∧ ((refused (req k.2.1 []) .badLength).dev.port .network).service = some ⟨req k.2.1 [], some .badLength⟩ := by decide +kernel

theorem witness_ReadIdentityReply : Asks .readIdentity 0x02 [] State.reset := by decide +kernel

theorem witness_ReadStatusReply : Asks .readStatus 0x01 [] running := by decide +kernel

theorem witness_ListsAndCatalogueRead :
    Asks .listRead 0x43 [31, 255, 1] State.reset ∧ Asks .listRead 0x43 [0, 0, 128] State.reset ∧ 1 ≤ (1 : Byte).toNat
      ∧ (128 : Byte).toNat ≤ 128
      ∧ Asks .queryList 0x0B [] running
      ∧ (let s := withClip (clip501 .ready) State.reset
         Asks .clipInfo 0x3C (beBytes 2 501) s ∧ fieldAt (beBytes 2 501) 0 2 ≠ 0
           ∧ findClip (BitVec.ofNat 16 (fieldAt (beBytes 2 501) 0 2)) s.dev = some 3
           ∧ s.dev.cat.places[(3 : PlaceNo)] = some (clip501 .ready))
      ∧ (Asks .clipInfo 0x3C (beBytes 2 502) State.reset
        ∧ findClip (BitVec.ofNat 16 (fieldAt (beBytes 2 502) 0 2)) State.reset.dev = none)
      ∧ Asks .catalogueRead 0x3D [0, 1] State.reset ∧ Asks .catalogueRead 0x3D [63, 32] State.reset := by decide +kernel

/-! ### Witnesses: conditions, control and phase -/

theorem witness_MaskIsStored : Asks .setMask 0x03 [0xFF, 0xFF] running := by decide +kernel

theorem witness_ConditionsAreCleared : Asks .clearConditions 0x04 [0x1F, 0x00] running := by decide +kernel

theorem witness_ControlMoves :
    (let s := { State.reset with lockout := true }
     AsksOn .maintenance .takeLocal 0x05 [] s ∧ s.lockout = true)
    ∧ (AsksOn .maintenance .takeLocal 0x05 [] State.reset ∧ State.reset.lockout = false ∧ State.reset.control = .network)
    ∧ (let s := { State.reset with control := .local_ }
       AsksOn .maintenance .takeLocal 0x05 [] s ∧ s.lockout = false ∧ s.control = .local_
         ∧ AsksOn .maintenance .returnRemote 0x06 [] s ∧ Asks .claimRemote 0x07 [] s)
    ∧ Asks .claimRemote 0x07 [] State.reset := by decide +kernel

theorem witness_LockoutIsSet :
    kindOf (req 0x08 []).kind = some .setLockout ∧ (req 0x08 []).body.length ≠ 1 ∧ (req 0x08 [1]).body.length = 1
      ∧ Asks .setLockout 0x08 [0] State.reset ∧ (Asks .setLockout 0x08 [1] State.reset ∧ State.reset.control = .network)
      ∧ (let s := { State.reset with control := .local_ }
         Asks .setLockout 0x08 [1] s ∧ s.control = .local_)
      ∧ Asks .setLockout 0x08 [2] State.reset ∧ Asks .setLockout 0x08 [255] State.reset ∧ 2 ≤ (2 : Byte).toNat
      ∧ (let s := { State.reset with lockout := true }
         AsksOn .maintenance .takeLocal 0x05 [] s ∧ s.lockout = true ∧ LockoutLaw s
           ∧ kindOf (req 0x40 []).kind = some .setSlot ∧ Kind.setSlot.needsControl = true) := by decide +kernel

/-- A programme with every setting Release asks for, and others without. -/
def fullProgramme : ProgrammeSet := { ProgrammeSet.reset with enabled := true, cueSid := some 210, comps := ProgrammeSet.reset.comps.set 0 (some 200) }

/-- A device in HELD with a frame period and programme 2 set. -/
def configured (g : ProgrammeSet) : State :=
  withSite (fun x => { x with timing := { x.timing with period := 240000 }, progs := x.progs.set 2 g }) State.reset

theorem witness_ReleaseStartsRunning :
    (Asks .release 0x09 [] State.reset ∧ State.reset.site.timing.period = 0)
      ∧ (Asks .release 0x09 [] (configured fullProgramme) ∧ (configured fullProgramme).site.timing.period ≠ 0
        ∧ ∀ q : ProgNo, ProgrammeSet.valid (configured fullProgramme).site.progs[q])
      ∧ (let s := configured { fullProgramme with cueSid := none }
         Asks .release 0x09 [] s ∧ s.site.timing.period ≠ 0 ∧ (∀ q' < (2 : ProgNo), ProgrammeSet.valid s.site.progs[q'])
           ∧ (s.site.progs[(2 : ProgNo)]).enabled = true ∧ (s.site.progs[(2 : ProgNo)]).cueSid = none)
      ∧ (let s := configured { fullProgramme with comps := ProgrammeSet.reset.comps }
         Asks .release 0x09 [] s ∧ s.site.timing.period ≠ 0 ∧ (∀ q' < (2 : ProgNo), ProgrammeSet.valid s.site.progs[q'])
           ∧ (s.site.progs[(2 : ProgNo)]).enabled = true ∧ (s.site.progs[(2 : ProgNo)]).cueSid.isSome = true
           ∧ ∀ c : Fin 8, (s.site.progs[(2 : ProgNo)]).comps[c] = none) := by
  refine ⟨⟨?_, ?_⟩, ⟨?_, ?_, ?_⟩, ⟨?_, ?_, ?_, ?_, ?_⟩, ⟨?_, ?_, ?_, ?_, ?_, ?_⟩⟩ <;> decide +kernel

theorem witness_SiteRestartClears : Asks .siteRestart 0x0A [] running := by decide +kernel

/-! ### Witnesses: configuration requests -/

theorem witness_WindowIsWritten :
    (Asks .setWindow 0x10 [15, 1, 3, 1, 0x00, 0xC0, 0x0F, 0xF8, 1, 0x03, 0xC0] running
        ∧ readWindow [15, 1, 3, 1, 0x00, 0xC0, 0x0F, 0xF8, 1, 0x03, 0xC0] = some (15, ⟨true, .both, .carry, 0xC0, 0xFF8, some 0x3C0⟩))
      ∧ (Asks .setWindow 0x10 [16, 1, 3, 1, 0, 0, 0, 0, 0, 0, 0] running
        ∧ readWindow [16, 1, 3, 1, 0, 0, 0, 0, 0, 0, 0] = none)
      ∧ Asks .setDefaultAction 0x11 [1] running ∧ Asks .setDefaultAction 0x11 [2] running
      ∧ (0x3C0 : Sid) &&& 0xFF8 ≠ 0xFF8 := by decide +kernel

theorem witness_SelectorIsSet :
    Asks .setSelector 0x18 (1 :: beBytes 4 (5000000#32).toNat) running ∧ Asks .setSelector 0x18 (2 :: beBytes 4 (5000001#32).toNat) running
      ∧ Asks .setSelector 0x18 (1 :: beBytes 4 (0xFFFFFFFF#32).toNat) running
      ∧ (Asks .setSelector 0x18 (3 :: beBytes 4 (0#32).toNat) running ∧ (3 : Byte) ≠ 1 ∧ (3 : Byte) ≠ 2) := by decide +kernel

theorem witness_TimeSettings :
    Asks .setTime 0x21 (beBytes 4 (0xFFFFFFFF#32).toNat) running
      ∧ Asks .setTimebase 0x20 (beBytes 2 (0#16).toNat ++ beBytes 1 (0#8).toNat ++ beBytes 4 (0#32).toNat) running
      ∧ Asks .setTimebase 0x20 (beBytes 2 (1000#16).toNat ++ beBytes 1 (16#8).toNat ++ beBytes 4 (86400#32).toNat) running
      ∧ Asks .setTimebase 0x20 (beBytes 2 (1001#16).toNat ++ beBytes 1 (17#8).toNat ++ beBytes 4 (86401#32).toNat) running := by decide +kernel

/-- Timing settings as a SetSite body spells them. -/
def timing1 : Timing := { Timing.reset with period := 240000, offset := -500000 }

theorem witness_TimingIsWritten :
    readTiming (writeTiming timing1) = some timing1
      ∧ (Asks .setSite 0x28 (writeTiming timing1) State.reset ∧ State.reset.site.phase = .held)
      ∧ (let s := withSite (fun x => { x with timing := { timing1 with offset := 500000 } }) running
         Asks .setSite 0x28 (writeTiming timing1) s ∧ s.site.phase = .running
           ∧ { timing1 with offset := s.site.timing.offset } = s.site.timing)
      ∧ (Asks .setSite 0x28 (writeTiming timing1) running ∧ running.site.phase = .running
        ∧ { timing1 with offset := running.site.timing.offset } ≠ running.site.timing) := by decide +kernel

theorem witness_HostChoiceIsSet :
    Asks .setOutputMode 0x29 [1] running ∧ Asks .setOutputMode 0x29 [2] running ∧ Asks .setOutputMode 0x29 [3] running
      ∧ running.dev.em.item = none ∧ Asks .setOutputMode 0x29 [0] running ∧ Asks .setOutputMode 0x29 [4] running := by decide +kernel

theorem witness_SlotEntryIsWritten :
    Asks .setSlot 0x40 (255 :: 1 :: 9 :: (some (31 : ListNo)).elim 255 (fun x => BitVec.ofNat 8 x.val) :: 1 :: beBytes 2 (1#16).toNat) running
      ∧ (1 : ClipId) ≠ 0
      ∧ Asks .setSlot 0x40 (0 :: 0 :: 0 :: (none : Option ListNo).elim 255 (fun x => BitVec.ofNat 8 x.val) :: 0 :: beBytes 2 (0#16).toNat) running
      ∧ (Asks .setSlot 0x40 (0 :: 2 :: 0 :: 255 :: 0 :: beBytes 2 (0#16).toNat) running ∧ 2 ≤ (2 : Byte).toNat)
      ∧ Asks .setSlot 0x40 (0 :: 1 :: 0 :: 255 :: 2 :: beBytes 2 (7#16).toNat) running
      ∧ (Asks .setSlot 0x40 (0 :: 1 :: 0 :: 32 :: 0 :: beBytes 2 (7#16).toNat) running ∧ 32 ≤ (32 : Byte).toNat)
      ∧ (Asks .setSlot 0x40 (0 :: 1 :: 0 :: 254 :: 0 :: beBytes 2 (7#16).toNat) running ∧ (254 : Byte).toNat ≤ 254)
      ∧ Asks .setSlot 0x40 (0 :: 1 :: 0 :: 255 :: 1 :: beBytes 2 (0#16).toNat) running := by decide +kernel

/-- A SetProgramme body for programme 4: enabled, cue SID 210, component 0 on SID 200. -/
def programmeBody : Bytes := [4, 1, 1, 0, 1, 0, 210, 1] ++ beBytes 2 200 ++ List.replicate 14 0

/-- What it sets: the pre-roll of 0 is raised to 1. -/
def programmeRead : ProgrammeSet := { fullProgramme with spliceEnable := true, preroll := 1 }

theorem witness_ProgrammeIsWritten :
    (Asks .setProgramme 0x48 (8 :: programmeBody.drop 1) running ∧ readProgramme (8 :: programmeBody.drop 1) = none)
      ∧ (Asks .setProgramme 0x48 programmeBody running ∧ readProgramme programmeBody = some (4, programmeRead)
        ∧ (running.dev.splice.progs[(4 : ProgNo)]).active = none ∧ (running.dev.splice.progs[(4 : ProgNo)]).queue = []
        ∧ (running.dev.splice.progs[(4 : ProgNo)]).ended = [] ∧ ∀ o : ProgNo, (running.site.progs[o]).enabled = false)
      ∧ (let s := configured fullProgramme
         Asks .setProgramme 0x48 programmeBody s ∧ programmeRead.enabled = true ∧ programmeRead.cueSid ≠ none
           ∧ (2 : ProgNo) ≠ 4 ∧ (s.site.progs[(2 : ProgNo)]).enabled = true ∧ (s.site.progs[(2 : ProgNo)]).cueSid = programmeRead.cueSid)
      ∧ (let s := withDev (fun d => d.updProg 4 (fun g => { g with
            queue := [⟨1, 0, 1, 0, 0, true, .pass, false, 0, .query, .none⟩] })) running
         Asks .setProgramme 0x48 programmeBody s ∧ s.site.phase = .running ∧ (s.dev.splice.progs[(4 : ProgNo)]).queue ≠ []
           ∧ ∀ o : ProgNo, (s.site.progs[o]).enabled = false) := by decide +kernel

theorem witness_CountersCountAndAnswer :
    Asks .setCounter 0x51 [BitVec.ofNat 8 (7 : Fin 8).val, BitVec.ofNat 8 (classCode .slotBusy), 0xFF] running
      ∧ Asks .setCounter 0x51 [8, 0, 0] running ∧ Asks .setCounter 0x51 [0, 14, 0] running ∧ 8 ≤ (8 : Byte).toNat ∧ 14 ≤ (14 : Byte).toNat
      ∧ Asks .clearCounters 0x53 [0] running ∧ Asks .clearCounters 0x53 [255] running ∧ Asks .snapshotCounters 0x52 [] running
      ∧ (let d := { running.dev with counters := running.dev.counters.set 7 ⟨.time, 1, 281474976710655⟩ }
         (d.counters[(7 : Fin 8)]).cls = .time ∧ (d.counters[(7 : Fin 8)]).selector.getLsbD 0 = true
           ∧ (d.counters[(7 : Fin 8)]).value = 281474976710655)
      ∧ ∀ i : Fin 8, (running.dev.counters[i]).value < 281474976710655 := by decide +kernel

/-! ### Witnesses: records, lists and clips -/

/-- A device with `n` records queued. -/
def withRecords (n : Nat) : Device :=
  let r : AsRunRecord := ⟨0, 0, 0, 0, .passed, .declined, false, false, false, false, false, false, none, none, 0, 0, []⟩
  { running.dev with asrun := { running.dev.asrun with queue := List.replicate n r } }

theorem witness_AsRunQueueServes :
    Asks .asRunFetch 0x50 [1] running ∧ Asks .asRunFetch 0x50 [8] running ∧ Asks .asRunFetch 0x50 [0] running
      ∧ Asks .asRunFetch 0x50 [9] running ∧ 8 < (9 : Byte).toNat
      ∧ (withRecords 63).asrun.queue.length < 64 ∧ 64 ≤ (withRecords 64).asrun.queue.length := by decide +kernel

/-- List 7 with entries 4 and 5 of clip 501, entry 5 in a given state. -/
def withList (st : EntryState) : State :=
  withDev (fun d => d.setLists
    ⟨(d.lists.pool.set 4 (some ⟨7, 501, .idle, []⟩)).set 5 (some ⟨7, 501, st, []⟩), d.lists.rings.set 7 [4, 5]⟩)
    (withClip (clip501 .ready) running)

theorem witness_ListIsEdited_known_at_tail :
    let s := withList .idle
    Asks .listInsert 0x41 (BitVec.ofNat 8 (7 : ListNo).val :: 1 :: BitVec.ofNat 8 (0 : EntryNo).val :: beBytes 2 (501#16).toNat) s
      ∧ (501 : ClipId) ≠ 0 ∧ vfind s.dev.lists.pool Option.isNone = some 0
      ∧ findClip 501 s.dev = some 3 ∧ s.dev.cat.places[(3 : PlaceNo)] = some (clip501 .ready) := by decide +kernel

theorem witness_ListIsEdited_unknown_before :
    let s := withList .idle
    Asks .listInsert 0x41 (BitVec.ofNat 8 (7 : ListNo).val :: 2 :: BitVec.ofNat 8 (5 : EntryNo).val :: beBytes 2 (502#16).toNat) s
      ∧ vfind s.dev.lists.pool Option.isNone = some 0
      ∧ findClip 502 s.dev = none ∧ vfind s.dev.cat.places Option.isNone = some 0
      ∧ s.dev.lists.pool[(5 : EntryNo)] = some ⟨7, 501, .idle, []⟩
      ∧ s.dev.lists.rings[(7 : ListNo)] = [4] ++ 5 :: [] ∧ (5 : EntryNo) ∉ ([4] : List EntryNo) := by decide +kernel

theorem witness_ListIsEdited_before_the_head :
    let s := withList .idle
    Asks .listInsert 0x41 (BitVec.ofNat 8 (7 : ListNo).val :: 2 :: BitVec.ofNat 8 (4 : EntryNo).val :: beBytes 2 (501#16).toNat) s
      ∧ s.dev.lists.pool[(4 : EntryNo)] = some ⟨7, 501, .idle, []⟩
      ∧ s.dev.lists.rings[(7 : ListNo)] = [] ++ 4 :: [5] := by decide +kernel

theorem witness_ListIsEdited_remove :
    (Asks .listRemove 0x42 [BitVec.ofNat 8 (0 : EntryNo).val] (withList .idle)
        ∧ (withList .idle).dev.lists.pool[(0 : EntryNo)] = none)
      ∧ (Asks .listRemove 0x42 [BitVec.ofNat 8 (5 : EntryNo).val] (withList .idle)
        ∧ (withList .idle).dev.lists.pool[(5 : EntryNo)] = some ⟨7, 501, .idle, []⟩)
      ∧ (Asks .listRemove 0x42 [BitVec.ofNat 8 (5 : EntryNo).val] (withList .inUse)
        ∧ (withList .inUse).dev.lists.pool[(5 : EntryNo)] = some ⟨7, 501, .inUse, []⟩)
      ∧ (Asks .listRemove 0x42 [BitVec.ofNat 8 (5 : EntryNo).val] (withList .retiring)
        ∧ (withList .retiring).dev.lists.pool[(5 : EntryNo)] = some ⟨7, 501, .retiring, []⟩) := by decide +kernel

theorem witness_ListIsEdited_remove_use :
    ∀ y ∈ [(ClipState.ready, 2), (.ready, 1), (.absent, 2), (.absent, 1)],
      let c : ClipRecord := { clip501 y.1 with use := y.2 }
      let s := withClip c (withList .idle)
      Asks .listRemove 0x42 [BitVec.ofNat 8 (5 : EntryNo).val] s ∧ s.dev.lists.pool[(5 : EntryNo)] = some ⟨7, 501, .idle, []⟩
        ∧ findClip 501 s.dev = some 3 ∧ s.dev.cat.places[(3 : PlaceNo)] = some c := by decide +kernel

/-- A ClipOpen body for a clip id and length, from the link. -/
def openBody (id len : Nat) : Bytes := beBytes 2 id ++ beBytes 3 len ++ [0xAA, 0xBB, 0xCC, 0xDD, 1, 0, 0, 0]

theorem witness_ClipIsOpened :
    (Asks .clipOpen 0x38 (openBody 502 9000) running ∧ readClipOpen (openBody 502 9000) = some ⟨502, 9000, 0xAABBCCDD, .link⟩
        ∧ findClip 502 running.dev = none ∧ vfind running.dev.cat.places Option.isNone = some 0
        ∧ (9000 + 4095) / 4096 ≤ running.dev.cat.freeList.length ∧ vfind running.dev.cat.ctxs Option.isNone = some 0)
      ∧ (let s := withClip { ClipRecord.fresh 501 with use := 2 } running
         Asks .clipOpen 0x38 (openBody 501 1) s ∧ readClipOpen (openBody 501 1) = some ⟨501, 1, 0xAABBCCDD, .link⟩
           ∧ findClip 501 s.dev = some 3 ∧ s.dev.cat.places[(3 : PlaceNo)] = some { ClipRecord.fresh 501 with use := 2 }
           ∧ (1 + 4095) / 4096 ≤ s.dev.cat.freeList.length ∧ vfind s.dev.cat.ctxs Option.isNone = some 0)
      ∧ readClipOpen (openBody 501 262144) = some ⟨501, 262144, 0xAABBCCDD, .link⟩ := by decide +kernel

/-- Clip 501 LOADING through context 2, with `n` of its cells in the load FIFO. -/
def loading (n : Nat) : State :=
  withDev (fun d => d.setCat { d.cat with
      ctxs := d.cat.ctxs.set 2 (some ⟨501, .link, n, none, 0xFFFFFFFF⟩)
      fifo := List.replicate n ⟨[], 2, 0, true⟩ })
    (withClip { clip501 .loading with ctx := some 2 } running)

/-- A ClipData body of `n` cells of component 7. -/
def dataBody (n : Nat) : Bytes :=
  beBytes 2 (501#16).toNat ++ BitVec.ofNat 8 n :: (List.replicate n ((7 : Byte) :: List.replicate 168 0)).flatten

theorem witness_ClipCellsAreTaken :
    (∀ x ∈ [(27, 5), (31, 1), (32, 1)],
        Asks .clipData 0x39 (dataBody x.2) (loading x.1) ∧ findClip 501 (loading x.1).dev = some 3
          ∧ (loading x.1).dev.cat.places[(3 : PlaceNo)] = some { clip501 .loading with ctx := some 2 }
          ∧ (loading x.1).dev.cat.ctxs[(2 : CtxNo)] = some ⟨501, .link, x.1, none, 0xFFFFFFFF⟩
          ∧ 0 < min x.2 (50 - x.1))
      ∧ ((7 : Byte) :: List.replicate 168 0).length = 169 ∧ (byteAt ((7 : Byte) :: List.replicate 168 0) 0).toNat ≤ 7
      ∧ (loading 27).dev.cat.fifo.length + min 5 (50 - 27) ≤ 32
      ∧ (loading 31).dev.cat.fifo.length + min 1 (50 - 31) ≤ 32
      ∧ 32 < (loading 32).dev.cat.fifo.length + min 1 (50 - 32) := by decide +kernel

/-- The same with five cells waiting and a burst in progress. -/
def loadBurst (t : Burst) : State := withDev (fun d => d.setArb { d.arb with current := some t }) (loading 5)

theorem witness_ClipStorageIsReturned :
    Asks .clipDelete 0x3B (beBytes 2 (0#16).toNat) running
      ∧ (Asks .clipDelete 0x3B (beBytes 2 (502#16).toNat) running ∧ findClip 502 running.dev = none ∧ (502 : ClipId) ≠ 0)
      ∧ (∀ st ∈ [ClipState.loading, .absent, .ready, .corrupt],
          Asks .clipDelete 0x3B (beBytes 2 (501#16).toNat) (withClip (clip501 st) running)
            ∧ findClip 501 (withClip (clip501 st) running).dev = some 3
            ∧ (withClip (clip501 st) running).dev.cat.places[(3 : PlaceNo)] = some (clip501 st))
      ∧ (let c := { clip501 .ready with play := 1, use := 1 }
         Asks .clipDelete 0x3B (beBytes 2 (501#16).toNat) (withClip c running) ∧ findClip 501 (withClip c running).dev = some 3
           ∧ (withClip c running).dev.cat.places[(3 : PlaceNo)] = some c ∧ 0 < c.play)
      ∧ (∀ t ∈ [⟨.emit, .slot 0 0, true⟩, (⟨.load, .block 9 0 [], true⟩ : Burst)],
          let s := loadBurst t
          Asks .clipAbort 0x3A (beBytes 2 (501#16).toNat) s ∧ findClip 501 s.dev = some 3
            ∧ s.dev.cat.places[(3 : PlaceNo)] = some { clip501 .loading with ctx := some 2 } ∧ s.dev.arb.current = some t
            ∧ s.dev.cat.fifo = ⟨[], 2, 0, true⟩ :: List.replicate 4 ⟨[], 2, 0, true⟩ ∧ (9 : BlockNo) ∈ (clip501 .loading).blocks) := by
  decide +kernel

/-! ### Witnesses: cues and breaks -/

/-- A cue of id 9 over frames 100 to 149. -/
def cue9 (f : Fallback) (dec : Decision) : Cue := ⟨9, 100, 50, 4, 3, true, f, false, 60, dec, .none⟩

/-- A cue in the queue of programme 2, over a slot table whose entry 4 is as given. -/
def withCue (c : Cue) (e : SlotEntry) : State :=
  withSite (fun x => { x with slotTable := x.slotTable.set 4 e, progs := x.progs.set 2 fullProgramme })
    (withDev (fun d => d.updProg 2 (fun g => { g with queue := [c] })) running)

theorem witness_QueryIsAnswered :
    let take := BitVec.ofNat 8 (2 : ProgNo).val :: beBytes 2 (9#16).toNat ++ [1, 1, BitVec.ofNat 8 (31 : ListNo).val]
    let lookup := BitVec.ofNat 8 (2 : ProgNo).val :: beBytes 2 (9#16).toNat ++ [1, 0, 0xFF]
    let decline := BitVec.ofNat 8 (2 : ProgNo).val :: beBytes 2 (9#16).toNat ++ [2, 1, 0xFF]
    let entry := fun s : State => s.site.slotTable[(cue9 .pass .query).slotCode.toFin]
    (∀ f ∈ [Fallback.blank, .pass], ∀ e ∈ [SlotEntry.reset, ⟨true, 3, some 31, none⟩, ⟨true, 4, none, none⟩], ∀ b ∈ [take, lookup, decline],
        let s := withCue (cue9 f .query) e
        Asks .cueAnswer 0x49 b s ∧ (s.dev.splice.progs[(2 : ProgNo)]).queue.find? (fun c => c.id == 9) = some (cue9 f .query)
          ∧ entry s = e ∧ (cue9 f .query).fallback = f ∧ (cue9 f .query).version = 3)
      ∧ SlotEntry.reset.enabled = false
      ∧ (∀ b ∈ [take, lookup, decline], Asks .cueAnswer 0x49 b running
          ∧ (running.dev.splice.progs[(2 : ProgNo)]).queue.find? (fun c => c.id == 9) = none
          ∧ Asks .cueAnswer 0x49 b (withCue (cue9 .pass .blank) SlotEntry.reset)
          ∧ ((withCue (cue9 .pass .blank) SlotEntry.reset).dev.splice.progs[(2 : ProgNo)]).queue.find? (fun c => c.id == 9)
              = some (cue9 .pass .blank)) := by decide +kernel

theorem witness_ProgrammeIsReset :
    Asks .programmeReset 0x4A [8] running ∧ 8 ≤ (8 : Byte).toNat ∧ Asks .programmeReset 0x4A [BitVec.ofNat 8 (7 : ProgNo).val] running
      ∧ (0 : ProgNo) ≠ 7 := by decide +kernel

/-- A break over frames 1,000 to 1,049 of programme 2, from a source. -/
def breakOf (src : Source) (playing : Option ClipId) : Break where
  id := 4
  cue := 1
  out := 1000
  endF := 1050
  slotCode := 0
  confirm := false
  blank := src == .null
  list := none
  filler := none
  cause := .none
  start := none
  current := none
  source := src
  playing := playing
  clipPos := 0
  lastMarked := none
  marked := []
  outstanding := 1
  work := 1
  items := [⟨501, 0, false⟩]
  tally := false
  draft := none

/-- A queued cue over frames 1,000 to 1,049. -/
def cue1000 : Cue := ⟨1, 1000, 50, 0, 0, false, .pass, false, 900, .armed none none, .none⟩

theorem witness_CueChecksInOrder :
    let set : ProgrammeSet := { ProgrammeSet.reset with preroll := 25 }
    ((cue1000.out - 976).toNat < set.preroll ∧ 8388608 ≤ (cue1000.out - 8389608).toNat)
      ∧ (set.preroll ≤ (cue1000.out - 975).toNat ∧ (cue1000.out - 975).toNat < 8388608)
      ∧ (cue1000.out - 8389609).toNat = 8388607
      ∧ rangesMeet 1049 1 cue1000.out cue1000.length = true ∧ rangesMeet 1050 1 cue1000.out cue1000.length = false
      ∧ rangesMeet 999 1 cue1000.out cue1000.length = false
      ∧ 4 ≤ (List.replicate 4 cue1000).length ∧ (List.replicate 3 cue1000).length < 4 := by decide +kernel

/-- CANCEL records that name a queued cue, an active break marked up to frame 1,019 with cancel frames about its end, and neither. -/
theorem witness_CueChecksInOrder_cancel :
    let b : Break := { breakOf .null none with lastMarked := some 1019 }
    let d := (running.dev.updProg 2 (fun g => { g with active := some b }))
    (((withCue (cue9 .pass .query) SlotEntry.reset).dev.splice.progs[(2 : ProgNo)]).queue.find? (fun c => c.id == 9)
        = some (cue9 .pass .query))
      ∧ (d.splice.progs[(2 : ProgNo)]).queue.find? (fun c => c.id == b.cue) = none ∧ (d.splice.progs[(2 : ProgNo)]).active = some b
      ∧ (d.splice.progs[(2 : ProgNo)]).ended = [] ∧ (d.splice.progs[(2 : ProgNo)]).closed = [] ∧ 0 < b.work
      ∧ (isBefore 1021 b.endF = true ∧ isAfter 1021 (1019 + 1) = true) ∧ isBefore (1019 + 1) b.endF = true
      ∧ (isBefore 1000 b.endF = true ∧ isAfter (1019 + 1) 1000 = true) ∧ isBefore 1050 b.endF = false ∧ b.cue ≠ 2 := by decide +kernel

/-- A query over frames 100 to 149 at the admission of frames 98 and 99. -/
theorem witness_CueChecksInOrder_expiry :
    ∀ f ∈ [Fallback.blank, .pass],
      let s := withCue (cue9 f .query) SlotEntry.reset
      (s.site.progs[(2 : ProgNo)]).enabled = true ∧ (s.dev.splice.progs[(2 : ProgNo)]).active = none
        ∧ (s.dev.splice.progs[(2 : ProgNo)]).queue = [cue9 f .query] ∧ (cue9 f .query).fallback = f
        ∧ isAfter ((cue9 f .query).out - 1) 98 = true ∧ isAfter (cue9 f .query).out 98 = true ∧ (99 : FrameNo) = (cue9 f .query).out - 1 := by
  decide +kernel

/-! ### Witnesses: feeds and selector -/

/-- A RUNNING device whose intake A is as given. -/
def feedA (f : Intake → Intake) : State := withDev (fun d => { d with intakeA := f d.intakeA }) running

theorem witness_DelineationFindsSync :
    State.reset.site.phase = .held ∧ (running.site.phase = .running ∧ (running.dev.intake .a).delin = .hunt)
      ∧ (∀ x ∈ [(174, 1), (175, 1), (175, 2)],
          let s := feedA (fun i => { i with delin := .presync, since := x.1, found := x.2 })
          s.site.phase = .running ∧ (s.dev.intake .a).delin = .presync ∧ (s.dev.intake .a).since = x.1
            ∧ (s.dev.intake .a).found = x.2)
      ∧ 174 + 1 < 176 := by decide +kernel

/-- A cell of the given header with an empty payload. -/
def cellOf (h : Header) : Bytes := formHeader h ++ List.replicate 168 0

/-- A marker of frame 77,000 with cell count `n`. -/
def markerOf (n : Nat) : Bytes := formHeader ⟨4095, .marker, false, 0, 0, 0⟩ ++ beBytes 3 77000 ++ [4] ++ beBytes 3 5 ++ beBytes 2 n
  ++ List.replicate 159 0

/-- A data cell of SID 200 at index `i`. -/
def dataCell (i : Nat) : Bytes := cellOf ⟨200, .payload, false, 5, 0, BitVec.ofNat 16 i⟩

/-- Intake A in SYNC. -/
def inSyncA (misses : Nat) (arrivals : List ArrivalFrame) (n : Nat) : State :=
  feedA (fun i => { i with delin := .sync, misses := misses, arrivals := arrivals, fifo := List.replicate n (.data []) })

/-- The same with a run of the position already in. -/
def withRun (run : Bytes) (s : State) : State := withDev (fun d => { d with intakeA := { d.intakeA with cellSoFar := run } }) s

theorem witness_CellPositionIsJudged :
    (∀ s ∈ [inSyncA 2 [] 0, withRun [0xB8] (inSyncA 0 [] 0), inSyncA 0 [⟨6, false, false, false⟩] 63, inSyncA 0 [⟨6, false, false, false⟩] 64],
        s.site.phase = .running ∧ (s.dev.intake .a).delin = .sync ∧ (s.dev.intake .a).assembly = none)
      ∧ ([0xB8, 1] : Bytes) ≠ [] ∧ ([0] : Bytes) ≠ [] ∧ ((inSyncA 2 [] 0).dev.intake .a).misses + 1 < 4
      ∧ ((inSyncA 2 [] 0).dev.intake .a).cellSoFar = [] ∧ (((inSyncA 2 [] 0).dev.intake .a).cellSoFar ++ [0xB8, 1]).length < 176
      ∧ (((withRun [0xB8] (inSyncA 0 [] 0)).dev.intake .a).cellSoFar ++ (dataCell 1).drop 1) = dataCell 1
      ∧ ((0 :: (dataCell 1).drop 1).length = 176 ∧ byteAt (0 :: (dataCell 1).drop 1) 0 ≠ 0xB8)
      ∧ ((dataCell 257).length = 176 ∧ byteAt (dataCell 257) 0 = 0xB8 ∧ headerValid (dataCell 257) = false)
      ∧ (∀ n ∈ [1, 256], (markerOf n).length = 176 ∧ byteAt (markerOf n) 0 = 0xB8 ∧ headerValid (markerOf n) = true
          ∧ (parseHeader (markerOf n)).sid = 4095#12 ∧ markerBad (parseMarker (markerOf n)) = false)
      ∧ ((inSyncA 0 [] 63).dev.intake .a).fifo.length < 64 ∧ ((inSyncA 0 [] 63).dev.intake .a).arrivals = []
      ∧ (∀ i ∈ [1, 256], (dataCell i).length = 176 ∧ byteAt (dataCell i) 0 = 0xB8 ∧ headerValid (dataCell i) = true
          ∧ (parseHeader (dataCell i)).sid ≠ 4095#12)
      ∧ ((inSyncA 0 [⟨6, false, false, false⟩] 63).dev.intake .a).arrivals = [⟨6, false, false, false⟩]
      ∧ ((inSyncA 0 [⟨6, false, false, false⟩] 63).dev.intake .a).fifo.length < 64
      ∧ 64 ≤ ((inSyncA 0 [⟨6, false, false, false⟩] 64).dev.intake .a).fifo.length := by decide +kernel

theorem witness_SilenceLosesSync :
    ∀ l ∈ [[], [(⟨6, false, false, false⟩ : ArrivalFrame)]],
      let s := feedA (fun i => { i with delin := .sync, silence := 100000, misses := 3, arrivals := l })
      (s.dev.intake .a).delin = .sync ∧ 100000 ≤ (s.dev.intake .a).silence ∧ (s.dev.intake .a).assembly = none
        ∧ ((0 : Byte) ≠ 0xB8 ∧ s.site.phase = .running ∧ (s.dev.intake .a).cellSoFar = [] ∧ (s.dev.intake .a).misses = 3)
        ∧ s.dev.sel.table = [] ∧ s.dev.em.item = none ∧ (s.dev.intake .a).arrivals = l := by decide +kernel

/-- A marker at the head of intake A. -/
def markerAtHead : State := feedA (fun i => { i with delin := .sync, fifo := [.marker (markerOf 6)], arrivals := [⟨6, false, false, false⟩] })

/-- The same with slots 0 to 5, or all, in use. -/
def slotsUsed (n : Nat) (s : State) : State :=
  let st := fun i : Nat => if i < n then SlotState.queued else .free
  withDev (fun d => { d with slots := ⟨⟨(List.range 40).map (fun i => { Record.empty with state := st i })⟩, by simp⟩ }) s

theorem witness_MarkerOpensFrame :
    (markerAtHead.dev.intake .a).fifo = .marker (markerOf 6) :: [] ∧ (markerAtHead.dev.intake .a).assembly = none
      ∧ (markerAtHead.dev.intake .a).arrivals = [⟨6, false, false, false⟩]
      ∧ (markerAtHead.dev.slots[(0 : SlotNo)]).state = .free
      ∧ (((slotsUsed 6 markerAtHead).dev.slots[(6 : SlotNo)]).state = .free
        ∧ ∀ j < (6 : SlotNo), ((slotsUsed 6 markerAtHead).dev.slots[j]).state ≠ .free)
      ∧ (∀ j : SlotNo, ((slotsUsed 40 markerAtHead).dev.slots[j]).state ≠ .free)
      ∧ ((slotsUsed 40 markerAtHead).dev.intake .a).fifo = .marker (markerOf 6) :: [] := by decide +kernel

/-- A data cell at the head of intake A, in a frame of 6 cells that expects position 2, with the windows as given. -/
def cellAtHead (cell : Bytes) (slot : Option SlotNo) (ws : Vector Window 16) : State :=
  withDev (fun d => d.updSlot 6 (fun r => { r with state := .assembling, declared := 6 }))
    (feedA (fun i => { i with
      delin := .sync, fifo := [.data cell], arrivals := [⟨6, false, false, false⟩]
      assembly := some ⟨slot, 2, ws, .carry, [], none⟩ }))

/-- The window of section 2.9 that drops SID 500, made to drop SID 200. -/
def dropWindows : Vector Window 16 := running.site.windows.set 7 ⟨true, .onlyA, .drop, 200, 4095, none⟩

theorem witness_HeadCellIsJudged :
    (∀ slot ∈ [none, some (6 : SlotNo)], ∀ ws ∈ [running.site.windows, dropWindows], ∀ i ∈ [1, 2, 6, 7],
        let s := cellAtHead (dataCell i) slot ws
        (s.dev.intake .a).fifo = .data (dataCell i) :: [] ∧ (s.dev.intake .a).assembly = some ⟨slot, 2, ws, .carry, [], none⟩
          ∧ s.dev.arb.outstanding .intakeA = false ∧ (s.dev.intake .a).arrivals = [⟨6, false, false, false⟩]
          ∧ (parseHeader (dataCell i)).index.toNat = i ∧ (s.dev.slots[(6 : SlotNo)]).declared = 6)
      ∧ winningWindow running.site.windows .a 200 = none
      ∧ winningWindow dropWindows .a 200 = some ⟨true, .onlyA, .drop, 200, 4095, none⟩
      ∧ isComponent [] 200 = false ∧ (parseHeader (dataCell 2)).sid = 200 := by decide +kernel

/-- The data cell `cell` at the head, in a frame under a default action whose snapshot has programme 2 with cue SID 210 and component SID
200, with window 7 of a kind over SID 200. -/
def cellUnder (cell : Bytes) (action : DefaultAction) (kind : WindowKind) (translate : Option Sid) : State :=
  withDev (fun d => { d with intakeA := { d.intakeA with
      continuity := [(200, 5)]
      assembly := some
        ⟨some 6, 2, running.site.windows.set 7 ⟨true, .onlyA, kind, 200, 4095, translate⟩, action,
          [⟨2, some 210, fullProgramme.comps⟩], none⟩ } })
    (cellAtHead cell (some 6) running.site.windows)

theorem witness_HeadCellIsJudged_windows :
    (∀ n ∈ [0, 1, 2], ∀ action ∈ [DefaultAction.carry, .drop],
        ∀ w ∈ [(WindowKind.carry, false), (.carry, true), (.drop, false), (.load, false)],
        let cell := [dataCell 2, cellOf ⟨200, .payload, false, 6, 0, 6⟩, cellOf ⟨210, .signal, false, 0, 0, 3⟩].getD n []
        let translate := if w.2 then some (77 : Sid) else none
        let s := cellUnder cell action w.1 translate
        let a : Assembly := ⟨some 6, 2, running.site.windows.set 7 ⟨true, .onlyA, w.1, 200, 4095, translate⟩, action,
          [⟨2, some 210, fullProgramme.comps⟩], none⟩
        (s.dev.intake .a).assembly = some a ∧ (s.dev.intake .a).fifo = .data cell :: []
          ∧ s.dev.arb.outstanding .intakeA = false ∧ (s.dev.intake .a).arrivals = [⟨6, false, false, false⟩]
          ∧ a.next ≤ (parseHeader cell).index.toNat ∧ (parseHeader cell).index.toNat ≤ (s.dev.slots[(6 : SlotNo)]).declared
          ∧ winningWindow a.windows .a 200 = some ⟨true, .onlyA, w.1, 200, 4095, translate⟩
          ∧ winningWindow a.windows .a 210 = none ∧ isComponent a.progs 200 = true ∧ a.progs.any (fun g => g.cueSid == some 210) = true)
      ∧ (parseHeader (dataCell 2)).cont = 5 ∧ findSource (.feed .a 200) (cellUnder (dataCell 2) .carry .load none).dev = none := by
  decide +kernel

/-- The same on a LOAD window, with a context of feed A and SID 200 bound to clip 501, which has accepted some cells, and `n` entries in
the load FIFO. -/
def loadCellAtHead (cell : Bytes) (accepted : Nat) (expected : Option (BitVec 4)) (n : Nat) : State :=
  withDev (fun d => d.setCat { d.cat with
      ctxs := d.cat.ctxs.set 2 (some ⟨501, .feed .a 200, accepted, expected, 0xFFFFFFFF⟩)
      fifo := List.replicate n ⟨[], 2, 0, true⟩ })
    (withClip { clip501 .loading with ctx := some 2 } (cellUnder cell .carry .load none))

theorem witness_HeadCellIsJudged_load :
    (∀ payload ∈ [true, false], ∀ accepted ∈ [49, 50], ∀ e ∈ [0, 5, 6], ∀ n ∈ [31, 32],
        let cell := if payload then dataCell 2 else cellOf ⟨200, .signal, false, 0, 0, 2⟩
        let expected := if e = 0 then none else some (BitVec.ofNat 4 e)
        let s := loadCellAtHead cell accepted expected n
        findSource (.feed .a 200) s.dev = some 2 ∧ s.dev.cat.ctxs[(2 : CtxNo)] = some ⟨501, .feed .a 200, accepted, expected, 0xFFFFFFFF⟩
          ∧ findClip 501 s.dev = some 3 ∧ s.dev.cat.places[(3 : PlaceNo)] = some { clip501 .loading with ctx := some 2 }
          ∧ s.dev.cat.fifo.length = n ∧ (parseHeader cell).sid = 200)
      ∧ (clip501 .loading).length = 50 ∧ (parseHeader (dataCell 2)).qual = .payload := by decide +kernel

/-- The frame whose cell `bursting` writes is taken whole; it declares one position. -/
def lastBurst : State :=
  withDev (fun d => { d.updSlot 0 (fun r => { r with declared := 1, state := .assembling }) with
    intakeA := { d.intakeA with arrivals := [⟨1, true, false, false⟩] } }) bursting

theorem witness_IntakeBurstWrites :
    (bursting.dev.arb.current = some ⟨.intakeA, .intake 0 0 [1, 2], true⟩ ∧ (bursting.dev.intake .a).assembly.isSome = true
        ∧ (bursting.dev.intake .a).arrivals = [⟨1, false, false, false⟩])
      ∧ (lastBurst.dev.arb.current = some ⟨.intakeA, .intake 0 0 [1, 2], true⟩
        ∧ (lastBurst.dev.intake .a).assembly
            = some ⟨some 0, 2, running.site.windows, .carry, [], some ⟨1, 7, .payload, none, false⟩⟩
        ∧ (lastBurst.dev.intake .a).arrivals = [⟨1, true, false, false⟩] ∧ (lastBurst.dev.intake .a).fifo.drop 1 = [])
      ∧ (let s := withDev (fun d => d.setArb { d.arb with current := some ⟨.intakeB, .intake 39 255 [1], false⟩ }) running
         s.dev.arb.current = some ⟨intakeRequestor .b, .intake 39 255 [1], false⟩) := by decide +kernel

/-- Site time 5 s, LOCKED, in FREE_RUN or SFN_STRICT. -/
def locked (m : SiteMode) (s : State) : State :=
  withSite (fun x => { x with timing := { x.timing with mode := m, period := 240000 } })
    (withTb (fun tb => { tb with secs := 5, ticks := 0, disc := .locked, present := true }) s)

/-- Slot 6 holds frame 77,000, stamped 6 s. -/
def completed : State :=
  withDev (fun d => d.updSlot 6 (fun r => { r with state := .assembling, number := some 77000, stamp := some (6, 0) }))
    (locked .sfnStrict (feedA (fun i => { i with delin := .sync })))

theorem witness_CopyIsTaken :
    let d := completed.dev
    (77000 : FrameNo) ∈ ({ d with sel := ⟨[77000], []⟩ } : Device).sel.decided ∧ (77000 : FrameNo) ∉ d.sel.decided
      ∧ (d.slots[(6 : SlotNo)]).frameNo = 77000 ∧ d.sel.table.find? (fun e => e.number == 77000) = none
      ∧ ({ completed.site with selMode := .firstValid } : Site).selMode = .firstValid ∧ completed.site.selMode = .primaryA
      ∧ (let e : PairEntry := ⟨77000, none, false, true, 10⟩
         ({ d with sel := ⟨[], [e]⟩ } : Device).sel.table.find? (fun e => e.number == 77000) = some e ∧ e.held = none ∧ e.damagedB = true)
      ∧ d.intakeA.delin = .sync ∧ d.sel.table.length < 8
      ∧ ((200000 : Nat) : Int) = min (completed.site.pairWait : Int)
          (leadOf completed.site.tb (stampDue completed.site ((d.slots[(6 : SlotNo)]).stamp.getD (0, 0)))
            - completed.site.timing.guard) := by decide +kernel

theorem witness_WaitEndDecides :
    ∀ e ∈ [(⟨5, none, true, false, 1⟩ : PairEntry), ⟨5, none, true, false, 0⟩, ⟨5, some (6, .b), false, false, 0⟩],
      let s := withDev (fun d => d.setSel ⟨[], [e]⟩) running
      s.dev.sel.table.find? (fun e => e.number == 5) = some e ∧ (e.wait = 0 ∨ 0 < e.wait) := by decide +kernel

theorem witness_ArbiterDecidesAndIsSet :
    ({ running.dev.arb with waiting := #v[none, none, some (.intake 4 0 []), some (.splice 5 0 1 []), none] } : Arbiter).choice = some 2
      ∧ Asks .setArbiter 0x30 [7, 0, 1, 2, 3] State.reset ∧ Asks .setArbiter 0x30 [8, 255, 0, 0, 0] State.reset := by decide +kernel

/-! ### Witnesses: site time -/

/-- A timebase at tick `t` in a discipline state, with a number of outliers and perhaps a label. -/
def atTick (t : Nat) (disc : Discipline) (outliers : Nat) (label : Option (BitVec 32)) : State :=
  withTb (fun tb => { tb with ticks := t, disc := disc, outliers := outliers, label := label, present := true }) running

theorem witness_GoodPulseAligns :
    ∀ t ∈ [0, 10, 9999990, 9999999], ∀ disc ∈ [Discipline.unset, .locked, .holdover],
      let s := atTick t disc 0 none
      s.site.tb.ticks < 10000000 ∧ s.site.tb.label = none
        ∧ (s.site.tb.ticks ≤ s.site.tb.lockWindow ∧ s.site.tb.ticks < 5000000
          ∨ 5000000 ≤ s.site.tb.ticks ∧ 10000000 - s.site.tb.ticks ≤ s.site.tb.lockWindow)
        ∧ s.site.tb.disc = disc ∧ s.site.tb.present = true := by decide +kernel

/-- ACQUIRING with 4 pulses to lock, with 2 and 3 good ones counted, and with the reference ABSENT. -/
theorem witness_GoodPulseAligns_acquiring :
    (∀ g ∈ [2, 3],
        let s := withTb (fun tb => { tb with good := g }) (atTick 10 .acquiring 0 none)
        s.site.tb.disc = .acquiring ∧ s.site.tb.present = true ∧ s.site.tb.good = g ∧ s.site.tb.pulsesToLock = 4 ∧ s.dev.em.item = none)
      ∧ (let s := withTb (fun tb => { tb with present := false }) (atTick 10 .acquiring 0 none)
         s.site.tb.disc = .acquiring ∧ s.site.tb.present = false) := by decide +kernel

/-- HOLDOVER with the reference ABSENT: no boundary, and a boundary before and at the limit of 5. -/
theorem witness_GoodPulseAligns_holdover :
    ∀ t ∈ [0, 10, 9999990, 9999999], ∀ n ∈ [3, 4],
      let s := withTb (fun tb => { tb with present := false, holdover := n, holdoverLimit := 5 }) (atTick t .holdover 0 none)
      s.site.tb.disc = .holdover ∧ s.site.tb.present = false ∧ s.site.tb.label = none ∧ s.site.tb.ticks = t ∧ t < 10000000
        ∧ (t ≤ s.site.tb.lockWindow ∧ t < 5000000 ∨ 5000000 ≤ t ∧ 10000000 - t ≤ s.site.tb.lockWindow)
        ∧ (s.site.tb.holdover + 1 < s.site.tb.holdoverLimit ∨ s.site.tb.holdoverLimit ≤ s.site.tb.holdover + 1) := by decide +kernel

theorem witness_LabelsAndOutliers :
    (let s := atTick 9999999 .unset 0 (some 1000)
     s.site.tb.ticks < 10000000 ∧ s.site.tb.disc = .unset ∧ s.site.tb.label = some 1000)
    ∧ ∀ t ∈ [11, 4999999, 5000000, 9999989], ∀ disc ∈ [Discipline.locked, .holdover], ∀ o ∈ [1, 2],
        let s := atTick t disc o none
        s.site.tb.ticks < 10000000 ∧ s.site.tb.label = none ∧ (s.site.tb.disc = .locked ∨ s.site.tb.disc = .holdover)
          ∧ (s.site.tb.ticks < 5000000 → s.site.tb.lockWindow < s.site.tb.ticks)
          ∧ (5000000 ≤ s.site.tb.ticks → s.site.tb.lockWindow < 10000000 - s.site.tb.ticks)
          ∧ (s.site.tb.outliers < 2 ∨ s.site.tb.outliers = 2) ∧ running.site.timing.mode = .sfnStrict := by decide +kernel

/-- Outliers in UNSET without a label, and good pulses in EXPIRED with the reference ABSENT. -/
theorem witness_LabelsAndOutliers_unset_and_expired :
    (∀ t ∈ [11, 4999999, 5000000, 9999989],
        let s := atTick t .unset 0 none
        s.site.tb.label = none ∧ s.site.tb.disc = .unset ∧ s.site.tb.ticks < 10000000
          ∧ (s.site.tb.ticks < 5000000 → s.site.tb.lockWindow < s.site.tb.ticks)
          ∧ (5000000 ≤ s.site.tb.ticks → s.site.tb.lockWindow < 10000000 - s.site.tb.ticks))
      ∧ (∀ t ∈ [0, 10, 9999990, 9999999],
        let s := withTb (fun tb => { tb with present := false }) (atTick t .expired 0 none)
        s.site.tb.label = none ∧ s.site.tb.disc = .expired ∧ s.site.tb.present = false ∧ s.site.tb.ticks < 10000000
          ∧ ¬ ((s.site.tb.ticks < 5000000 → s.site.tb.lockWindow < s.site.tb.ticks)
            ∧ (5000000 ≤ s.site.tb.ticks → s.site.tb.lockWindow < 10000000 - s.site.tb.ticks))) := by decide +kernel

/-- Outliers in ACQUIRING and EXPIRED, a pulse in EXPIRED with and without the reference, and labels of the second and of another. -/
theorem witness_LabelsAndOutliers_other_states :
    (∀ t ∈ [11, 4999999, 5000000, 9999989], ∀ disc ∈ [Discipline.acquiring, .expired], ∀ present ∈ [true, false],
        let s := withTb (fun tb => { tb with present := present }) (atTick t disc 0 none)
        s.site.tb.ticks < 10000000 ∧ s.site.tb.label = none ∧ s.site.tb.disc = disc ∧ s.site.tb.present = present
          ∧ (s.site.tb.ticks < 5000000 → s.site.tb.lockWindow < s.site.tb.ticks)
          ∧ (5000000 ≤ s.site.tb.ticks → s.site.tb.lockWindow < 10000000 - s.site.tb.ticks)
          ∧ s.site.tb.outliers = 0 ∧ s.site.tb.holdover = 0)
      ∧ (∀ disc ∈ [Discipline.acquiring, .locked, .holdover, .expired], ∀ l ∈ [0, 1, 2],
        let s := atTick 9999999 disc 0 (some (BitVec.ofNat 32 l))
        s.site.tb.ticks < 10000000 ∧ s.site.tb.disc ≠ .unset ∧ s.site.tb.label = some (BitVec.ofNat 32 l) ∧ s.site.tb.secs + 1 = 1)
      ∧ (let s := withDev (fun d => { d with
            em := { d.em with buffer := [6] }, splice := { d.splice with queue := [6] } }) (atTick 11 .locked 2 none)
         s.site.tb.outliers = 2 ∧ s.site.timing.mode = .sfnStrict ∧ ∀ i ∈ s.dev.splice.queue, i ∈ s.dev.em.buffer) := by decide +kernel

theorem witness_PulseChecksAndBoundaries :
    (∀ seen ∈ [true, false],
        let s := withTb (fun tb => { tb with disc := .locked, checkDue := true, pulseSeen := seen, present := true }) running
        s.site.tb.checkDue = true ∧ s.site.tb.pulseSeen = seen ∧ s.site.tb.disc = .locked ∧ s.site.tb.present = true)
      ∧ running.site.tb.present = false
      ∧ (∀ h ∈ [598, 599, 600],
          let s := withTb (fun tb => { tb with disc := .holdover, ticks := 9999999, holdover := h }) running
          s.site.tb.ticks = 9999999 ∧ s.site.tb.disc = .holdover
            ∧ (s.site.tb.holdover + 1 < s.site.tb.holdoverLimit ∨ s.site.tb.holdoverLimit ≤ s.site.tb.holdover + 1))
      ∧ (let s := atTick 9999999 .locked 0 none
         s.site.tb.ticks = 9999999 ∧ s.site.tb.disc ≠ .holdover) := by decide +kernel

/-! ### Witnesses: release and emission -/

/-- The lead of the stamp (6, t) at site time 5 s under the settings after reset is 1 s and t ticks; horizon 2 s, guard 5 ms. -/
theorem witness_AdmissionClasses :
    let x := (locked .sfnStrict running).site
    let lead := fun stamp => leadOf x.tb (stampDue x stamp)
    (0 < 256 ∧ 255 < 256)
      ∧ (running.site.timing.mode = .sfnStrict ∧ running.site.tb.trusted = false)
      ∧ x.timing.mode = .sfnStrict ∧ x.tb.trusted = true
      ∧ ((x.timing.horizon : Int) < lead (7, 1))
      ∧ (lead (7, 0) ≤ x.timing.horizon ∧ (x.timing.guard : Int) ≤ lead (7, 0))
      ∧ (lead (5, 49999) ≤ x.timing.horizon ∧ lead (5, 49999) < x.timing.guard)
      ∧ (lead (5, 50000) ≤ x.timing.horizon ∧ (x.timing.guard : Int) ≤ lead (5, 50000))
      ∧ outOfOrder running.dev 5 (stampDue x (5, 50000)) = false
      ∧ outOfOrder { running.dev with em := { running.dev.em with lastReleased := some ⟨5, ⟨0, 0⟩⟩ } } 5 (stampDue x (5, 50000)) = true := by
  decide +kernel

/-- Frame 77,000 in slot 6 is due now. -/
def dueNow (c : HostChoice) : State :=
  withSite (fun x => { x with hostChoice := c })
    (withDev (fun d => { d.updSlot 6 (fun r => { r with state := .queued, due := some ⟨50000000, 0⟩, marker := markerOf 6 }) with
      em := { d.em with buffer := [6] } }) completed)

theorem witness_DueFrameIsTaken :
    (∀ c ∈ [HostChoice.onAir, .mute, .standby],
        let s := dueNow c
        s.dev.em.item = none ∧ s.dev.em.gaps = [] ∧ s.dev.em.buffer = [6]
          ∧ (s.dev.slots[(6 : SlotNo)]).due = some ⟨50000000, 0⟩ ∧ (s.dev.slots[(6 : SlotNo)]).state = .queued
          ∧ (s.dev.slots[(6 : SlotNo)]).marks = [] ∧ arrived s.site.tb ⟨50000000, 0⟩ 0 = true)
      ∧ (outputMode (dueNow .onAir).site (dueNow .onAir).dev = .onAir
        ∧ passed (dueNow .onAir).site.tb ⟨50000000, 0⟩ (dueNow .onAir).site.timing.tolerance = false
        ∧ 0 < (dueNow .onAir).dev.em.credits)
      ∧ outputMode (dueNow .mute).site (dueNow .mute).dev = .muted
      ∧ outputMode (dueNow .standby).site (dueNow .standby).dev = .standby := by decide +kernel

/-- A gap frame due `D` waits for a credit, of which there are `n`, in SFN_STRICT; the head of the buffer, frame 77,000, is due at 6
s. -/
def gapWaiting (n : Nat) (due : Int) : State :=
  withDev (fun d => { d.updSlot 6 (fun r => { r with state := .queued, due := some ⟨60000000, 0⟩ }) with
      em := { d.em with credits := n, buffer := [6], item := some ⟨.gap ⟨8, ⟨due, 0⟩, []⟩, ⟨due, 0⟩, .waiting⟩ } })
    completed

/-- The frame of slot 7, due `D`, waits for a credit instead, and EMIT's burst of another frame is in progress. -/
def frameWaiting (n : Nat) (due : Int) : State :=
  withDev (fun d => { d.updSlot 7 (fun r => { r with state := .emitting, number := some 76999, due := some ⟨due, 0⟩, declared := 6 }) with
      arb := { d.arb with current := some ⟨.emit, .slot 5 0, false⟩ }
      em := { d.em with item := some ⟨.real 7, ⟨due, 0⟩, .waiting⟩ } })
    (gapWaiting n due)

theorem witness_CreditsAndWaits :
    (running.site.timing.credits ≤ running.dev.em.credits ∧ running.dev.em.item = none)
      ∧ (let s := withDev (fun d => { d with em := { d.em with credits := 1, item := some ⟨.real 0, ⟨0, 0⟩, .sending 3⟩ } }) running
         s.dev.em.credits < s.site.timing.credits ∧ s.dev.em.item = some ⟨.real 0, ⟨0, 0⟩, .sending 3⟩)
      ∧ (∀ s ∈ [gapWaiting 0 50000000, frameWaiting 0 50000000],
          s.dev.em.credits < s.site.timing.credits ∧ s.site.timing.mode = .sfnStrict
            ∧ passed s.site.tb ⟨50000000, 0⟩ s.site.timing.tolerance = false)
      ∧ (∀ s ∈ [gapWaiting 0 49989999, frameWaiting 0 49989999],
          s.dev.em.credits < s.site.timing.credits ∧ s.site.timing.mode = .sfnStrict ∧ s.dev.em.gaps = []
            ∧ s.dev.em.buffer = 6 :: [] ∧ (s.dev.slots[(6 : SlotNo)]).due = some ⟨60000000, 0⟩
            ∧ arrived s.site.tb ⟨60000000, 0⟩ 0 = false
            ∧ arrived s.site.tb ⟨49989999, 0⟩ s.site.timing.tolerance = true ∧ passed s.site.tb ⟨49989999, 0⟩ s.site.timing.tolerance = true)
      ∧ (gapWaiting 0 50000000).dev.em.item = some ⟨.gap ⟨8, ⟨50000000, 0⟩, []⟩, ⟨50000000, 0⟩, .waiting⟩
      ∧ (gapWaiting 0 49989999).dev.em.item = some ⟨.gap ⟨8, ⟨49989999, 0⟩, []⟩, ⟨49989999, 0⟩, .waiting⟩
      ∧ (frameWaiting 0 50000000).dev.em.item = some ⟨.real 7, ⟨50000000, 0⟩, .waiting⟩
      ∧ (frameWaiting 0 49989999).dev.em.item = some ⟨.real 7, ⟨49989999, 0⟩, .waiting⟩
      ∧ (withSite (fun x => { x with timing := { x.timing with mode := .freeRun } }) (gapWaiting 0 0)).site.timing.mode = .freeRun := by
  decide +kernel

/-- Frame 10 was released at 4.76 s; frame `n` waits, due 5.24 s; a period is 24 ms; the next candidate is the `k`-th. -/
def gapDue (n : FrameNo) (k : Nat) : State :=
  withDev (fun d => { d.updSlot 6 (fun r => { r with state := .queued, number := some n, due := some ⟨52400000, 0⟩ }) with
      em := { d.em with
        buffer := [6], item := some ⟨.real 0, ⟨49760000, 0⟩, .sending 1⟩
        lastReleased := some ⟨10, ⟨49760000, 0⟩⟩, gapRef := some ⟨10, ⟨49760000, 0⟩, k⟩ } })
    (locked .sfnStrict running)

theorem witness_GapFrameIsMade :
    ∀ n ∈ [12, 11],
      let s := gapDue (BitVec.ofNat 24 n) 1
      s.dev.em.gapRef = some ⟨10, ⟨49760000, 0⟩, 1⟩ ∧ s.dev.em.lastReleased = some ⟨10, ⟨49760000, 0⟩⟩
        ∧ s.dev.em.buffer = 6 :: [] ∧ (s.dev.slots[(6 : SlotNo)]).due = some ⟨52400000, 0⟩
        ∧ s.dev.em.item = some ⟨.real 0, ⟨49760000, 0⟩, .sending 1⟩ ∧ s.site.timing.period ≠ 0
        ∧ arrived s.site.tb ⟨49760000, 0⟩ (1 * s.site.timing.period : Nat) = true
        ∧ (1 < ((s.dev.slots[(6 : SlotNo)]).frameNo - 10).toNat ∨ ((s.dev.slots[(6 : SlotNo)]).frameNo - 10).toNat ≤ 1)
        ∧ (49760000 : Int) + (1 * s.site.timing.period : Nat) < 52400000
        ∧ isAfter ((10 : FrameNo) + BitVec.ofNat 24 1) 10 = true := by decide +kernel

/-- The head, frame 11, due at the first candidate instant after frame 10, is taken there and waits for a credit; frame 12 is the next
head. -/
def headTaken (st : Stage) : State :=
  withDev (fun d => { d.updSlot 7 (fun r => { r with state := .emitting, number := some 11, due := some ⟨50000000, 0⟩ }) with
      em := { d.em with item := some ⟨.real 7, ⟨50000000, 0⟩, st⟩, gapRef := some ⟨10, ⟨49760000, 0⟩, 1⟩ } })
    (gapDue 12 1)

theorem witness_GapFrameIsMade_head_taken :
    ∀ st ∈ [Stage.waiting, .filling],
      let s := headTaken st
      s.dev.em.gapRef = some ⟨10, ⟨49760000, 0⟩, 1⟩ ∧ s.dev.em.item = some ⟨.real 7, ⟨50000000, 0⟩, st⟩ ∧ s.site.timing.period ≠ 0
        ∧ (⟨50000000, 0⟩ : Due).unwrapped = (⟨49760000, 0⟩ : Due).unwrapped + (1 * s.site.timing.period : Nat)
        ∧ arrived s.site.tb ⟨49760000, 0⟩ (1 * s.site.timing.period : Nat) = true := by decide +kernel

/-- The last line of section 5.10's example: a head due at the candidate instant gives no gap frame, in the order the block takes by
itself (the examination first) and with the head taken before it. -/
theorem test_no_gap_frame_for_a_head_due_at_the_candidate_instant :
    (match exec .gapCandidateInstant (headTaken .waiting) with
      | .next t => (t.dev.em.gaps.length, t.dev.em.gapRef.map (·.next))
      | _ => (9, none)) = (0, some 2)
    ∧ (let s := withDev (fun d => { d.updSlot 6 (fun r => { r with number := some 11, due := some ⟨50000000, 0⟩ }) with
          em := { d.em with item := none } }) (gapDue 12 1)
       eventNow s = some .gapCandidateInstant
         ∧ (match exec .gapCandidateInstant s with
           | .next t => (t.dev.em.gaps.length, eventNow t)
           | _ => (9, none)) = (0, some .dueInstant)) := by decide +kernel

/-- Slot 6, restamped on SID 200, is being sent; EMIT's burst of its second position completes, effective or discarded; frame 77,000 in
slot 8 is the head of the buffer, due at 6 s. -/
def emitting (e : HeaderEntry) (declared : Nat) (output : List Bytes) (item : Option Item) (keep : Bool) : State :=
  withDev (fun d => { (d.updSlot 6 (fun r => { r with state := .emitting, declared := declared, headers := [e] })).updSlot 8 (fun r =>
        { r with state := .queued, due := some ⟨60000000, 0⟩ }) with
      arb := { d.arb with current := some ⟨.emit, .slot 6 1, keep⟩ }
      em := { d.em with item := item, output := output, buffer := [8] } })
    (withSite (fun x => { x with progs := x.progs.set 2 { fullProgramme with spliceEnable := true } }) (locked .sfnStrict running))

/-- Slot 6 is in service, its marker and first position on the port. -/
def sendingSix : Option Item := some ⟨.real 6, ⟨0, 0⟩, .sending 1⟩

theorem witness_CellsAreSent :
    (∀ e ∈ [(⟨2, 4094, .null, none, true⟩ : HeaderEntry), ⟨2, 200, .payload, none, false⟩, ⟨2, 201, .payload, none, false⟩,
          ⟨2, 200, .marker, none, false⟩],
        let s := emitting e 6 [] sendingSix true
        s.dev.arb.current = some ⟨.emit, .slot 6 1, true⟩ ∧ s.dev.em.item = some ⟨.real 6, ⟨0, 0⟩, .sending 1⟩ ∧ s.dev.em.output = []
          ∧ (s.dev.slots[(6 : SlotNo)]).headers.find? (fun e => e.pos == (1 : Fin 256).val + 1) = some e
          ∧ (∀ o ∈ (s.dev.slots[(6 : SlotNo)]).headers, o.pos = (1 : Fin 256).val + 1 → o.lateNull = e.lateNull)
          ∧ restamped s.site 200 = true ∧ restamped s.site 201 = false ∧ e.sid.toNat < 4095)
    ∧ (let s := emitting ⟨2, 200, .payload, none, false⟩ 6 [] none false
       s.dev.arb.current = some ⟨.emit, .slot 6 1, false⟩ ∧ s.dev.em.item = none)
    ∧ (∀ n ∈ [1, 2],
        let s := emitting ⟨2, 200, .payload, none, false⟩ n [[0xB8]] sendingSix true
        s.dev.em.item = some ⟨.real 6, ⟨0, 0⟩, .sending (1 : Fin 256).val⟩ ∧ s.dev.em.output = [[0xB8]] ∧ s.dev.em.held = none
          ∧ (s.dev.slots[(6 : SlotNo)]).declared = n ∧ (s.dev.slots[(6 : SlotNo)]).marks = [] ∧ s.dev.em.gaps = []
          ∧ s.dev.em.buffer = 8 :: [] ∧ (s.dev.slots[(8 : SlotNo)]).due = some ⟨60000000, 0⟩
          ∧ arrived s.site.tb ⟨60000000, 0⟩ 0 = false)
    ∧ (let i : Item := ⟨.gap ⟨8, ⟨0, 0⟩, [0xB8]⟩, ⟨0, 0⟩, .sending 0⟩
       let s := emitting ⟨2, 200, .payload, none, false⟩ 6 [[0xB8]] (some i) false
       s.dev.em.item = some i ∧ s.dev.em.output = [[0xB8]] ∧ s.dev.em.held = none ∧ s.dev.em.buffer = 8 :: [] ∧ s.dev.em.gaps = []) := by
  decide +kernel

theorem witness_LoadBurstWrites :
    let s := withDev (fun d => d.setArb { d.arb with current := some ⟨.load, .block 9 0 [], true⟩ }) (loading 2)
    (let s := withDev (fun d => { d with
        arb := { d.arb with current := some ⟨.load, .block 9 0 [], false⟩ }, cat := { d.cat with fifo := [⟨[], 2, 0, false⟩] } }) running
     s.dev.cat.fifo = ⟨[], 2, 0, false⟩ :: [] ∧ s.dev.arb.current = some ⟨.load, .block 9 0 [], false⟩)
    ∧ s.dev.arb.current = some ⟨.load, .block 9 0 [], true⟩ ∧ s.dev.cat.fifo = ⟨[], 2, 0, true⟩ :: [⟨[], 2, 0, true⟩]
      ∧ s.dev.cat.ctxs[(2 : CtxNo)] = some ⟨501, .link, 2, none, 0xFFFFFFFF⟩ ∧ findClip 501 s.dev = some 3
      ∧ s.dev.cat.places[(3 : PlaceNo)] = some { clip501 .loading with ctx := some 2 }
      ∧ ({ clip501 .loading with ctx := some 2 } : ClipRecord).loaded + 1
          < ({ clip501 .loading with ctx := some 2 } : ClipRecord).length := by decide +kernel

/-- The last cell of clip 501 in its burst, with a digest that agrees and one that does not. -/
theorem witness_LoadBurstWrites_finish :
    ∀ digest ∈ [0xFFFFFFFF, 0],
      let c : ClipRecord := { clip501 .loading with ctx := some 2, loaded := 49, digest := BitVec.ofNat 32 digest }
      let s := withClip c (withDev (fun d => d.setArb { d.arb with current := some ⟨.load, .block 9 49 [], true⟩ }) (loading 1))
      s.dev.cat.fifo = ⟨[], 2, 0, true⟩ :: [] ∧ s.dev.arb.current = some ⟨.load, .block 9 49 [], true⟩
        ∧ s.dev.cat.ctxs[(2 : CtxNo)] = some ⟨501, .link, 1, none, 0xFFFFFFFF⟩ ∧ findClip 501 s.dev = some 3
        ∧ s.dev.cat.places[(3 : PlaceNo)] = some c ∧ c.loaded + 1 = c.length := by decide +kernel

/-- Slot 6 in splice work for that break, its first position of two in a burst; clip 501's first clip cell is of component 0. -/
def splicing (b : Break) : State :=
  withDev (fun d => { d.updSlot 6 (fun r => { r with
        state := .splicing, marks := [⟨2, 4, true⟩], cursor := some 0, work := [⟨2, 1⟩, ⟨2, 2⟩]
        headers := [⟨1, 200, .payload, some (2, 0), false⟩, ⟨2, 200, .payload, some (2, 0), false⟩] }) with
      arb := { d.arb with current := some ⟨.splice, .splice 6 0 2 (nullCell 1), true⟩ }
      splice := { d.splice with queue := [6], progs := d.splice.progs.set 2 ⟨[], some b, [], [], []⟩ } })
    (withClip (clip501 .ready) (withSite (fun x => { x with progs := x.progs.set 2 fullProgramme }) running))

/-- The same, the frame in service and waiting for that burst, which may be discarded. -/
def filling (b : Break) (keep : Bool) : State :=
  withDev (fun d => { d with
      arb := { d.arb with current := some ⟨.splice, .splice 6 0 2 (nullCell 1), keep⟩ }
      em := { d.em with item := some ⟨.real 6, ⟨0, 0⟩, .filling⟩ } }) (splicing b)

theorem witness_SpliceBurstWrites :
    (∀ b ∈ [breakOf .null none, breakOf .list (some 501)], ∀ s ∈ [splicing b, filling b true],
        s.dev.arb.current = some ⟨.splice, .splice 6 0 2 (nullCell 1), true⟩ ∧ (s.dev.slots[(6 : SlotNo)]).marks = [⟨2, 4, true⟩]
          ∧ (s.dev.splice.progs[(2 : ProgNo)]).active = some b ∧ b.id = 4 ∧ (s.dev.splice.progs[(2 : ProgNo)]).ended = []
          ∧ (s.dev.splice.progs[(2 : ProgNo)]).closed = [] ∧ (s.dev.slots[(6 : SlotNo)]).cursor = some 0
          ∧ (s.dev.slots[(6 : SlotNo)]).work.drop (0 + 1) = ⟨2, 2⟩ :: [])
      ∧ (splicing (breakOf .null none)).dev.em.item = none
      ∧ (∀ keep ∈ [true, false],
        (filling (breakOf .null none) keep).dev.em.item = some ⟨.real 6, ⟨0, 0⟩, .filling⟩
          ∧ (filling (breakOf .null none) keep).dev.arb.current = some ⟨.splice, .splice 6 0 2 (nullCell 1), keep⟩)
      ∧ (let s := splicing (breakOf .list (some 501))
         (0 + 1 < clipLength 501 s.dev) ∧ byteAt (readClipCell 501 0 s.dev) 0 = BitVec.ofNat 8 (0 : Fin 8).val
           ∧ (s.site.progs[(2 : ProgNo)]).comps[(0 : Fin 8)] = some 200) := by decide +kernel

/-- List 7 with entries 4, 5 and 6 as given. -/
def withEntries (x y z : RingEntry) (s : State) : State :=
  withDev (fun d => d.setLists
    ⟨((d.lists.pool.set 4 (some x)).set 5 (some y)).set 6 (some z), d.lists.rings.set 7 [4, 5, 6]⟩) s

/-- A cell of a clip or of the filler, at the start and at the last cell of the clip, and of a component without a SID. -/
theorem witness_SpliceBurstWrites_source :
    (∀ src ∈ [Source.list, .filler], ∀ pos ∈ [0, 49],
        let b := { breakOf src (some 501) with clipPos := pos, list := some 7, current := some 4 }
        let s := withEntries ⟨7, 501, .inUse, [⟨2, 4⟩]⟩ ⟨7, 501, .retiring, []⟩ ⟨7, 501, .idle, []⟩ (splicing b)
        (s.dev.splice.progs[(2 : ProgNo)]).active = some b ∧ b.source ≠ .null ∧ b.playing = some 501
          ∧ byteAt (readClipCell 501 pos s.dev) 0 = BitVec.ofNat 8 (0 : Fin 8).val ∧ (s.site.progs[(2 : ProgNo)]).comps[(0 : Fin 8)] = some 200
          ∧ findClip 501 s.dev = some 3 ∧ s.dev.cat.places[(3 : PlaceNo)] = some (clip501 .ready) ∧ (clip501 .ready).length = 50
          ∧ s.dev.lists.rings[(7 : ListNo)] = [] ++ 4 :: [5, 6])
      ∧ (∀ c ∈ [1, 7, 8, 255],
        let s := withDev (fun d => { d with mem := memWrite d.mem 8032256 (BitVec.ofNat 8 c) }) (splicing (breakOf .list (some 501)))
        byteAt (readClipCell 501 0 s.dev) 0 = BitVec.ofNat 8 c
          ∧ ∀ k : Fin 8, BitVec.ofNat 8 c = BitVec.ofNat 8 k.val → (s.site.progs[(2 : ProgNo)]).comps[k] = none) := by decide +kernel

/-- A walk past a RETIRING entry to one that is IDLE, held by another break, or held by this one, with the clip READY and not, and a
filler whose clip is READY, not READY, or absent. -/
theorem witness_SpliceBurstWrites_walk :
    ∀ z ∈ [(⟨7, 501, .idle, []⟩ : RingEntry), ⟨7, 501, .inUse, [⟨3, 9⟩]⟩, ⟨7, 501, .inUse, [⟨2, 4⟩]⟩], ∀ st ∈ [ClipState.ready, .absent],
      ∀ fills ∈ [true, false],
      let filler : Option ClipId := if fills then some 501 else none
      let b := { breakOf .list (some 501) with filler := filler, draft := some 5 }
      let d := (withEntries ⟨7, 501, .retiring, [⟨3, 9⟩]⟩ z ⟨7, 501, .idle, []⟩ (withClip (clip501 st) running)).dev
      b.blank = false ∧ d.lists.pool[(4 : EntryNo)] = some ⟨7, 501, .retiring, [⟨3, 9⟩]⟩
        ∧ (⟨7, 501, .retiring, [⟨3, 9⟩]⟩ : RingEntry).heldBy b.id = false ∧ d.lists.pool[(5 : EntryNo)] = some z
        ∧ (z.heldBy b.id = true ∨ z.heldBy b.id = false ∧ z.state ≠ .retiring)
        ∧ findClip 501 d = some 3 ∧ d.cat.places[(3 : PlaceNo)] = some (clip501 st) ∧ b.filler = filler := by decide +kernel

/-- The frame of `splicing` is the head of the buffer and due now, at site time 5 s in SFN_STRICT, with no credit; its burst is in
progress, or none is. -/
def dueSplicing (b : Break) (granted : Bool) : State :=
  withDev (fun d => { d.updSlot 6 (fun r => { r with due := some ⟨50000000, 0⟩ }) with
      arb := if granted then d.arb else { d.arb with current := none }
      intakeA := { d.intakeA with delin := .sync }
      em := { d.em with buffer := [6], credits := 0 } })
    (locked .sfnStrict (splicing b))

theorem witness_DueFrameIsTaken_late :
    ∀ b ∈ [breakOf .null none, breakOf .list (some 501)],
      let r := (dueSplicing b true).dev.slots[(6 : SlotNo)]
      (∀ granted ∈ [true, false],
        let s := dueSplicing b granted
        s.dev.em.item = none ∧ s.dev.em.gaps = [] ∧ s.dev.em.buffer = [6] ∧ s.dev.slots[(6 : SlotNo)] = r ∧ r.due = some ⟨50000000, 0⟩
          ∧ r.state = .splicing ∧ arrived s.site.tb ⟨50000000, 0⟩ 0 = true)
      ∧ (dueSplicing b true).dev.arb.current = some ⟨.splice, .splice 6 0 2 (nullCell 1), true⟩
      ∧ (2 ∈ r.openProgs ∧ r.markOf 2 = some ⟨2, 4, true⟩ ∧ getBreak 2 4 (dueSplicing b true).dev = some b)
      ∧ (let s := dueSplicing b false
         s.dev.arb.current = none ∧ r.marks = [⟨2, 4, true⟩] ∧ r.cursor = some 0 ∧ r.work.drop 0 = [⟨2, 1⟩, ⟨2, 2⟩]
           ∧ (s.dev.splice.progs[(2 : ProgNo)]).active = some b ∧ b.id = 4 ∧ (s.dev.splice.progs[(2 : ProgNo)]).ended = []
           ∧ (s.dev.splice.progs[(2 : ProgNo)]).closed = [] ∧ s.dev.splice.queue = [6] ∧ outputMode s.site s.dev = .onAir
           ∧ passed s.site.tb ⟨50000000, 0⟩ s.site.timing.tolerance = false ∧ s.dev.em.credits = 0
           ∧ (b.source = .null ∨ b.source = .list ∧ b.playing = some 501 ∧ b.clipPos + 2 < clipLength 501 s.dev)) := by decide +kernel

theorem witness_AdmittedFrameIsMarked :
    let s := splicing (breakOf .null none)
    (s.site.progs[(2 : ProgNo)]).enabled = true ∧ (s.dev.splice.progs[(2 : ProgNo)]).queue = []
      ∧ (s.dev.splice.progs[(2 : ProgNo)]).active = some (breakOf .null none)
      ∧ (s.dev.splice.progs[(2 : ProgNo)]).ended = [] ∧ (s.dev.splice.progs[(2 : ProgNo)]).closed = []
      ∧ inRange 1000 1000 1050 = true ∧ inRange 1048 1000 1050 = true ∧ inRange 1049 1000 1050 = true ∧ inRange 999 1000 1050 = false
      ∧ inRange 1050 1000 1050 = false ∧ (1048 : FrameNo) ≠ 1050 - 1 ∧ (1049 : FrameNo) = 1050 - 1 := by decide +kernel

theorem witness_AdmittedFrameIsMarked_start :
    ∀ dec ∈ [Decision.blank, .armed none none], ∀ k ∈ [100, 148],
      let c := cue9 .pass dec
      let s := withCue c SlotEntry.reset
      (s.site.progs[(2 : ProgNo)]).enabled = true ∧ s.dev.splice.progs[(2 : ProgNo)] = ⟨[c], none, [], [], []⟩ ∧ c.decision = dec
        ∧ 1 ≤ c.length ∧ c.length ≤ 65535 ∧ inRange (BitVec.ofNat 24 k) c.out c.endF = true ∧ BitVec.ofNat 24 k ≠ c.endF - 1
        ∧ vfind s.dev.asrun.drafts Option.isNone = some 0 := by decide +kernel

theorem witness_AdmittedFrameIsMarked_list_start :
    ∀ z ∈ [(⟨7, 501, .idle, []⟩ : RingEntry), ⟨7, 501, .inUse, [⟨3, 9⟩]⟩], ∀ k ∈ [100, 148],
      let c := cue9 .pass (.armed (some 7) none)
      let s := withEntries z z z (withClip (clip501 .ready) (withCue c SlotEntry.reset))
      (s.site.progs[(2 : ProgNo)]).enabled = true ∧ s.dev.splice.progs[(2 : ProgNo)] = ⟨[c], none, [], [], []⟩
        ∧ c.decision = .armed (some 7) none ∧ inRange (BitVec.ofNat 24 k) c.out c.endF = true ∧ BitVec.ofNat 24 k ≠ c.endF - 1
        ∧ vfind s.dev.asrun.drafts Option.isNone = some 0 ∧ s.dev.lists.rings[(7 : ListNo)] = 4 :: [5, 6]
        ∧ s.dev.lists.pool[(4 : EntryNo)] = some z ∧ z.state ≠ .retiring ∧ z.heldBy s.dev.splice.nextBreak = false
        ∧ findClip 501 s.dev = some 3 ∧ s.dev.cat.places[(3 : PlaceNo)] = some (clip501 .ready) ∧ (clip501 .ready).state = .ready := by
  decide +kernel

/-- A draft of a break over frames 1,000 to 1,049, with `n` frames outstanding. -/
def draftOf (closed : Bool) (n : Nat) : Draft where
  prog := 2
  cue := 1
  slotCode := 0
  confirm := false
  blank := false
  cause := .none
  first := none
  last := none
  emitted := 0
  lost := 0
  outstanding := n
  standby := false
  muted := false
  lateFill := false
  filler := false
  moreClips := false
  closed := closed
  items := []

/-- A break that plays entry 4 of list 7, or its filler, with draft 5. -/
def listBreak (b : Break) : Break := { b with list := some 7, draft := some 5 }

/-- Programme 2 in that break, with its draft, and the list with its entry held. -/
def inBreak (b : Break) (y : Draft) : State :=
  withDev (fun d => { d.setAsRun { d.asrun with drafts := d.asrun.drafts.set 5 (some y) } with
      splice := { d.splice with progs := d.splice.progs.set 2 ⟨[], some b, [], [], []⟩ }
      lists := ⟨d.lists.pool.set 4 (some ⟨7, 501, .inUse, [⟨2, 4⟩]⟩), d.lists.rings.set 7 [5, 4]⟩ })
    (withClip { clip501 .ready with play := 1 } running)

theorem witness_AdmittedFrameIsMarked_close :
    ∀ n ∈ [0, 1], ∀ b ∈ [{ listBreak (breakOf .list (some 501)) with current := some 4 }, listBreak (breakOf .filler (some 501))],
      let s := inBreak b (draftOf false n)
      s.dev.asrun.queue.length < 64 ∧ b.draft = some 5 ∧ s.dev.asrun.drafts[(5 : DraftNo)] = some (draftOf false n)
        ∧ (b.list = some 7 ∧ s.dev.lists.rings[(7 : ListNo)] = [5, 4]
          ∧ s.dev.lists.pool[(4 : EntryNo)] = some ⟨7, 501, .inUse, [⟨2, 4⟩]⟩)
        ∧ (b.playing = some 501 ∧ clipRecord 501 s.dev = some { clip501 .ready with play := 1 })
        ∧ (b.current = some 4 ∨ b.current = none) := by decide +kernel

/-- A break at entry 4, 5 or 6 of a list whose entries it holds: one IN_USE, one RETIRING, and one it shares with another break. -/
theorem witness_AdmittedFrameIsMarked_head :
    ∀ src ∈ [Source.list, .null], ∀ cur ∈ [((4 : EntryNo), ([] : List EntryNo), ([5, 6] : List EntryNo)), (5, [4], [6]), (6, [4, 5], [])],
      let b := { listBreak (breakOf src (some 501)) with current := some cur.1 }
      let s := withEntries ⟨7, 501, .inUse, [⟨2, 4⟩]⟩ ⟨7, 501, .retiring, [⟨2, 4⟩]⟩ ⟨7, 501, .retiring, [⟨2, 4⟩, ⟨3, 9⟩]⟩
        (inBreak b (draftOf false 1))
      s.dev.asrun.queue.length < 64 ∧ b.draft = some 5 ∧ s.dev.asrun.drafts[(5 : DraftNo)] = some (draftOf false 1)
        ∧ b.list = some 7 ∧ b.current = some cur.1 ∧ s.dev.lists.rings[(7 : ListNo)] = cur.2.1 ++ cur.1 :: cur.2.2
        ∧ (s.dev.lists.rings[(7 : ListNo)]).Nodup
        ∧ (∀ o ∈ s.dev.lists.rings[(7 : ListNo)], (s.dev.lists.pool[o]).all (fun z => z.list == 7) = true)
        ∧ clipRecord 501 s.dev = some { clip501 .ready with play := 1 } ∧ (clip501 .ready).state ≠ .absent := by decide +kernel

theorem witness_AdmittedFrameIsMarked_fate :
    ∀ closed ∈ [true, false], ∀ n ∈ [1, 2],
      let b := listBreak (breakOf .null none)
      let s := inBreak b (draftOf closed n)
      s.dev.asrun.queue.length < 64 ∧ getBreak 2 4 s.dev = some b ∧ b.draft = some 5
        ∧ s.dev.asrun.drafts[(5 : DraftNo)] = some (draftOf closed n) := by decide +kernel

end Sys2Proof.Tests
end

section
/-! PROOFS. What SetSelector does (R33, R46): the check of a request with a fixed body length at its taking, the fields of a body read back
from the bytes they were written as, and the two answers of the owner of SetSelector. -/

namespace Sys2Proof.Machine

/-! ### Big-endian fields -/

/-- A byte in front of a run weighs the run's whole length. -/
theorem beNat_cons (b : Byte) (bs : Bytes) : beNat (b :: bs) = b.toNat * 256 ^ bs.length + beNat bs := by
  have foldl_from (acc : Nat) : bs.foldl (fun a x => a * 256 + x.toNat) acc = acc * 256 ^ bs.length + beNat bs := by
    unfold beNat
    induction bs generalizing acc with
    | nil => simp
    | cons c cs ih =>
      rw [List.foldl_cons, List.foldl_cons, ih, ih (0 * 256 + c.toNat), List.length_cons]
      ring
  simpa [beNat] using foldl_from b.toNat

@[simp] theorem length_beBytes (k n : Nat) : (beBytes k n).length = k := by
  induction k with
  | zero => rfl
  | succ k ih => simp [beBytes, ih]

/-- Bytes written from a number spell that number, up to what fits in them. -/
theorem beNat_beBytes (k n : Nat) : beNat (beBytes k n) = n % 256 ^ k := by
  induction k with
  | zero => simp [beBytes, beNat, Nat.mod_one]
  | succ k ih =>
    rw [beBytes, beNat_cons, length_beBytes, ih, BitVec.toNat_ofNat, Nat.mod_pow_succ (b := 256), Nat.mul_comm, Nat.add_comm]

/-- The field of a body that a run of written bytes fills to its end reads as the number written. -/
theorem fieldAt_append_beBytes (front : Bytes) (k n : Nat) :
    fieldAt (front ++ beBytes k n) front.length k = n % 256 ^ k := by
  have taken : (beBytes k n).take k = beBytes k n := List.take_of_length_le (by simp)
  rw [fieldAt, List.drop_left, taken, beNat_beBytes]

/-! ### Requests with a body of one length (R10, R172) -/

/-- A kind served on either port and in both phases, with bodies of one length, is received as R10 and R172 say. -/
theorem Kind.received_of_serve {k : Kind} {len : Nat} {owner : Port → Request → State → Answer}
    (hlen : ∀ n, k.lengthOk n = (n == len)) (hport : ∀ p, k.portOk p = true) (hphase : ∀ ph body, k.phaseRefusal ph body = none)
    (hrow : ∀ p s, exec (k.row p) s = serve k p (owner p) s) : k.Received len k.needsControl := by
  intro ph c p r hk
  refine ⟨fun hne => ?_, fun heq => ?_, fun st s hs => ?_⟩
  · simp [takingRefusal, hk, hlen, hne]
  · simp [takingRefusal, hk, hlen, hport, hphase, heq]
  · rw [hrow, serve_refused hs hk]

/-! ### SetSelector -/

/-- The row of SetSelector serves the request with the selector's owner. -/
theorem exec_setSelector (p : Port) (s : State) : exec (.setSelector p) s = serve .setSelector p ownSetSelector s := by
  rfl

/-- SetSelector with a mode of R33: both settings are taken, the wait lowered to its bound, and the change from PRIMARY_A to FIRST_VALID
decides the entries that hold a copy (R46). -/
theorem ownSetSelector_of_mode {r : Request} {first : Bool} {w : BitVec 32}
    (hbody : r.body = (if first then 1 else 2) :: beBytes 4 w.toNat) (s : State) :
    let x := { s.site with selMode := if first then .firstValid else .primaryA, pairWait := min w.toNat 5000000 }
    ownSetSelector r s =
      ⟨(s.setSite x).setDev (if first && s.site.selMode == .primaryA then decideHeld x s.dev else s.dev),
        if w.toNat ≤ 5000000 then .ok else .okClamped,
        if w.toNat ≤ 5000000 then [] else (if first then 1 else 2) :: beBytes 4 5000000⟩ := by
  have hmode : byteAt r.body 0 = if first then 1 else 2 := by rw [hbody]; rfl
  have hwait : fieldAt r.body 1 4 = w.toNat := by
    rw [hbody]
    exact (fieldAt_append_beBytes [_] 4 w.toNat).trans (Nat.mod_eq_of_lt w.isLt)
  dsimp only [ownSetSelector]
  rw [hmode, hwait]
  by_cases hle : w.toNat ≤ 5000000
  · cases first <;> simp [hle]
  · have hmin : min w.toNat 5000000 = 5000000 := Nat.min_eq_right (by omega)
    have hne : 5000000 ≠ w.toNat := by omega
    cases first <;> simp [hle, hmin, hne, beBytes]

/-- SetSelector with any other mode is refused and leaves the state as it was (R33). -/
theorem ownSetSelector_of_bad_mode {r : Request} (h1 : byteAt r.body 0 ≠ 1) (h2 : byteAt r.body 0 ≠ 2) (s : State) :
    ownSetSelector r s = .refuse s .badField := by
  unfold ownSetSelector
  split
  · next hcode => exact absurd (BitVec.eq_of_toNat_eq hcode) h1
  · next hcode => exact absurd (BitVec.eq_of_toNat_eq hcode) h2
  · rfl

/-- Settles O26: the check at the taking is that of a kind with one body length, and a request in service is answered as the selector's
owner answers it, by the mode it names. -/
theorem selectorIsSet : Obligations.SelectorIsSet := by
  refine ⟨?_, fun p r s first w hserve hbody => ?_, fun p r s mode w hserve h1 h2 hbody => ?_⟩
  · exact Kind.received_of_serve (owner := fun _ => ownSetSelector) (fun _ => rfl) (fun _ => rfl) (fun ph _ => by cases ph <;> rfl)
      exec_setSelector
  · rw [exec_setSelector, serve_serving hserve, ownSetSelector_of_mode hbody]
  · have hmode : byteAt r.body 0 = mode := by rw [hbody]; rfl
    rw [exec_setSelector, serve_serving hserve, ownSetSelector_of_bad_mode (by rwa [hmode]) (by rwa [hmode])]
    rfl

end Sys2Proof.Machine
end

section
/-! PROOFS. What SetSlot does (R119): the fields of its body read back from the bytes they were written as, every way a byte lies outside
its values, the layout of the entry it answers with, and the two answers of its owner. -/

namespace Sys2Proof.Machine

/-! ### Field readers -/

/-- One byte of a number is that number's low byte. -/
theorem beBytes_one (n : Nat) : beBytes 1 n = [BitVec.ofNat 8 n] := by simp [beBytes]

theorem readFlag_ite (f : Bool) : readFlag (if f then 1 else 0) = some f := by cases f <;> rfl

theorem readFlag_eq_none {b : Byte} (h : 2 ≤ b.toNat) : readFlag b = none := by
  have h0 : b ≠ 0 := by rintro rfl; simp at h
  have h1 : b ≠ 1 := by rintro rfl; simp at h
  rw [readFlag, if_neg h0, if_neg h1]

theorem ofNat_flagCode (f : Bool) : BitVec.ofNat 8 (flagCode f) = if f then 1 else 0 := by cases f <;> rfl

theorem finOf_val {n : Nat} (i : Fin n) : finOf n i.val = some i := by simp [finOf]

theorem finOf_eq_none {n v : Nat} (h : n ≤ v) : finOf n v = none := by simp [finOf, h]

/-! ### The slot table entry of a body and of a reply -/

/-- The byte of a list number, 255 for no list (R119). -/
def listCode (list : Option ListNo) : Byte := list.elim 255 (fun x => BitVec.ofNat 8 x.val)

/-- A list number is below 32, and no list is 255. -/
theorem listCode_in_values (list : Option ListNo) : (listCode list).toNat < 32 ∨ (listCode list).toNat = 255 := by
  cases list with
  | none => exact .inr rfl
  | some x => left; simp [listCode]; omega

theorem finOf_listCode (list : Option ListNo) : finOf 32 (listCode list).toNat = list := by
  cases list with
  | none => exact finOf_eq_none (by decide)
  | some x =>
    have hval : (listCode (some x)).toNat = x.val := by simp [listCode]; omega
    rw [hval, finOf_val]

/-- The clip id of a SetSlot body is read back as it was written. -/
theorem fieldAt_slotBody (code en ver l pres : Byte) (id : ClipId) :
    fieldAt (code :: en :: ver :: l :: pres :: beBytes 2 id.toNat) 5 2 = id.toNat :=
  (fieldAt_append_beBytes [code, en, ver, l, pres] 2 id.toNat).trans (Nat.mod_eq_of_lt id.isLt)

/-- What a SetSlot body names: both flags are read, the list byte and the clip id of a present filler checked, and the four fields kept. -/
theorem readSlotEntry_body (code en ver l pres : Byte) (id : ClipId) :
    readSlotEntry (code :: en :: ver :: l :: pres :: beBytes 2 id.toNat) =
      (readFlag en).bind fun enabled => (readFlag pres).bind fun present =>
        if (32 ≤ l.toNat ∧ l.toNat ≤ 254) ∨ (present = true ∧ id = 0) then none
        else some (code.toFin, ⟨enabled, ver, finOf 32 l.toNat, if present then some id else none⟩) := by
  have hzero : id.toNat = 0 ↔ id = 0 := BitVec.toNat_inj (y := 0)
  unfold readSlotEntry
  rw [fieldAt_slotBody]
  simp only [byteAt, List.getD_cons_succ, List.getD_cons_zero]
  cases readFlag en <;> cases readFlag pres <;> simp [hzero, ite_or]

/-- A body whose bytes are within their values names the entry it was written from; the clip id counts only with filler present. -/
theorem readSlotEntry_of_values (code ver : Byte) (enabled present : Bool) (list : Option ListNo) {id : ClipId}
    (hid : present = true → id ≠ 0) :
    readSlotEntry (code :: (if enabled then 1 else 0) :: ver :: listCode list :: (if present then 1 else 0) :: beBytes 2 id.toNat)
      = some (code.toFin, ⟨enabled, ver, list, if present then some id else none⟩) := by
  have hgood : ¬ ((32 ≤ (listCode list).toNat ∧ (listCode list).toNat ≤ 254) ∨ (present = true ∧ id = 0)) := by
    rintro (hlist | ⟨hpresent, hzero⟩)
    · have := listCode_in_values list
      omega
    · exact hid hpresent hzero
  rw [readSlotEntry_body, readFlag_ite, readFlag_ite, finOf_listCode, Option.bind_some, Option.bind_some, if_neg hgood]

/-- A body with a byte outside its values, or with filler present and clip id 0, names no entry. -/
theorem readSlotEntry_eq_none {code en ver l pres : Byte} {id : ClipId}
    (h : 2 ≤ en.toNat ∨ 2 ≤ pres.toNat ∨ (32 ≤ l.toNat ∧ l.toNat ≤ 254) ∨ (pres = 1 ∧ id = 0)) :
    readSlotEntry (code :: en :: ver :: l :: pres :: beBytes 2 id.toNat) = none := by
  rw [readSlotEntry_body]
  rcases h with hen | hpres | hlist | ⟨rfl, rfl⟩
  · rw [readFlag_eq_none hen, Option.bind_none]
  · simp [readFlag_eq_none hpres]
  · simp [hlist]
  · simp [readFlag]

/-- The bytes of an entry in the order of R119; an absent filler is written as 0. -/
theorem writeSlotEntry_eq (e : SlotEntry) :
    writeSlotEntry e = (if e.enabled then 1 else 0) :: e.version :: listCode e.list :: (if e.filler.isSome then 1 else 0)
      :: beBytes 2 (e.filler.elim 0 BitVec.toNat) := by
  obtain ⟨enabled, version, list, filler⟩ := e
  simp only [writeSlotEntry, beBytes_one, ofNat_flagCode]
  cases list <;> cases filler <;> rfl

/-! ### SetSlot -/

/-- The row of SetSlot serves the request with the slot table's owner. -/
theorem exec_setSlot (p : Port) (s : State) : exec (.setSlot p) s = serve .setSlot p ownSetSlot s := by
  rfl

theorem ownSetSlot_of_some {r : Request} {i : Fin 256} {e : SlotEntry} (h : readSlotEntry r.body = some (i, e)) (s : State) :
    ownSetSlot r s =
      ⟨s.setSite { s.site with slotTable := s.site.slotTable.set i e }, .ok, writeSlotEntry s.site.slotTable[i]⟩ := by
  simp [ownSetSlot, h]

theorem ownSetSlot_of_none {r : Request} (h : readSlotEntry r.body = none) (s : State) : ownSetSlot r s = .refuse s .badField := by
  simp [ownSetSlot, h]

/-- Settles O30: the check at the taking is that of a kind with one body length, and a request in service is answered by the slot table's
owner, which writes the entry its body names, or refuses a body that names none. -/
theorem slotEntryIsWritten : Obligations.SlotEntryIsWritten := by
  refine ⟨?_, fun p r s code en ver l pres id hserve hbody => ⟨?_, fun hbad => ?_⟩⟩
  · exact Kind.received_of_serve (owner := fun _ => ownSetSlot) (fun _ => rfl) (fun _ => rfl) (fun ph _ => by cases ph <;> rfl)
      exec_setSlot
  · rintro enabled present list rfl rfl rfl hid
    have hread := (congrArg readSlotEntry hbody).trans (readSlotEntry_of_values code ver enabled present list hid)
    rw [exec_setSlot, serve_serving hserve, ownSetSlot_of_some hread, writeSlotEntry_eq]
    rfl
  · have hread := (congrArg readSlotEntry hbody).trans (readSlotEntry_eq_none hbad)
    rw [exec_setSlot, serve_serving hserve, ownSetSlot_of_none hread]
    rfl

end Sys2Proof.Machine
end

section
/-! PROOFS. The as-run queue (R155, R162, R163): what recomputing the summaries leaves as it was, the two fates of a completed record, and
the two answers of the owner of AsRunFetch. -/

namespace Sys2Proof.Machine

/-! ### What a recomputed summary leaves -/

@[simp] theorem refresh_asrun (x : Site) (d : Device) : (refresh x d).asrun = d.asrun := rfl
@[simp] theorem refresh_counters (x : Site) (d : Device) : (refresh x d).counters = d.counters := rfl
@[simp] theorem refresh_latched (x : Site) (d : Device) : (refresh x d).latched = d.latched := rfl

@[simp] theorem latch_asrun (x : Site) (bits : BitVec 16) (d : Device) : (latch x bits d).asrun = d.asrun := rfl
@[simp] theorem latch_counters (x : Site) (bits : BitVec 16) (d : Device) : (latch x bits d).counters = d.counters := rfl
@[simp] theorem latch_latched (x : Site) (bits : BitVec 16) (d : Device) : (latch x bits d).latched = d.latched ||| bits := rfl

/-! ### A completed record -/

theorem pushRecord_of_room {x : Site} {d : Device} (h : d.asrun.queue.length < 64) (rec_ : AsRunRecord) :
    pushRecord x rec_ d = refresh x (d.setAsRun
      { d.asrun with next := d.asrun.next + 1, queue := d.asrun.queue ++ [{ rec_ with number := d.asrun.next }] }) :=
  if_pos h

theorem pushRecord_of_full {x : Site} {d : Device} (h : 64 ≤ d.asrun.queue.length) (rec_ : AsRunRecord) :
    pushRecord x rec_ d = loseRecord x d :=
  if_neg (Nat.not_lt.mpr h)

@[simp] theorem loseRecord_asrun (x : Site) (d : Device) :
    (loseRecord x d).asrun = { d.asrun with next := d.asrun.next + 1, lost := d.asrun.lost + 1 } := rfl
@[simp] theorem loseRecord_latched (x : Site) (d : Device) : (loseRecord x d).latched = d.latched ||| asrunLostBit := rfl

/-! ### AsRunFetch -/

/-- The row of AsRunFetch serves the request with the as-run queue's owner. -/
theorem exec_asRunFetch (p : Port) (s : State) : exec (.asRunFetch p) s = serve .asRunFetch p ownAsRunFetch s := by
  rfl

/-- AsRunFetch with a maximum count of 1 to 8: the oldest records leave the queue and go into the reply behind their count. -/
theorem ownAsRunFetch_of_count {r : Request} {n : Byte} (hbody : r.body = [n]) (hlo : 1 ≤ n.toNat) (hhi : n.toNat ≤ 8) (s : State) :
    ownAsRunFetch r s =
      ⟨s.setDev (refresh s.site (s.dev.setAsRun { s.dev.asrun with queue := s.dev.asrun.queue.drop n.toNat })), .ok,
        BitVec.ofNat 8 (min n.toNat s.dev.asrun.queue.length) :: (s.dev.asrun.queue.take n.toNat).flatMap encodeRecord⟩ := by
  have hcount : byteAt r.body 0 = n := by rw [hbody]; rfl
  have hzero : n.toNat ≠ 0 := by omega
  have htop : ¬ 8 < n.toNat := by omega
  simp [ownAsRunFetch, hcount, hzero, htop, beBytes_one]

/-- AsRunFetch with any other maximum count is refused. -/
theorem ownAsRunFetch_of_bad_count {r : Request} {n : Byte} (hbody : r.body = [n]) (hbad : n.toNat = 0 ∨ 8 < n.toNat) (s : State) :
    ownAsRunFetch r s = .refuse s .badField := by
  have hcount : byteAt r.body 0 = n := by rw [hbody]; rfl
  simp only [ownAsRunFetch, hcount]
  exact if_pos (by simpa using hbad)

/-- Settles O33: the check at the taking is that of a kind with one body length, a request in service is answered by its maximum count,
and a completed record finds room in the queue or finds it full. -/
theorem asRunQueueServes : Obligations.AsRunQueueServes := by
  refine ⟨?_, fun p r s n hserve hbody => ⟨fun hlo hhi => ?_, fun hbad => ?_⟩, fun x rec_ d => ⟨fun hroom => ?_, fun hfull => ?_⟩⟩
  · exact Kind.received_of_serve (owner := fun _ => ownAsRunFetch) (fun _ => rfl) (fun _ => rfl) (fun ph _ => by cases ph <;> rfl)
      exec_asRunFetch
  · rw [exec_asRunFetch, serve_serving hserve, ownAsRunFetch_of_count hbody hlo hhi]
    rfl
  · rw [exec_asRunFetch, serve_serving hserve, ownAsRunFetch_of_bad_count hbody hbad]
    rfl
  · rw [pushRecord_of_room hroom, refresh_asrun, Device.setAsRun_asrun]
  · rw [pushRecord_of_full hfull]
    exact ⟨loseRecord_asrun x d, loseRecord_latched x d⟩

end Sys2Proof.Machine
end

section
/-! PROOFS. The counters (R165 to R169): what adding to every counter does to each and to COUNTER_WRAP, the class codes, the clearing of
the named counters, the eight bytes of each counter in a snapshot, and the answers of the three owners. -/

namespace Sys2Proof.Machine

/-! ### Adding to the counters (R165, R166) -/

theorem Counter.wraps_iff (c : Counter) (n : Nat) : c.wraps n = true ↔ 281474976710656 ≤ c.value + n := by
  simp [Counter.wraps]

/-- One of the counters goes past its top with what it is given (R166). -/
def SomeWraps (hit : Counter → Nat) (v : Vector Counter 8) : Prop := ∃ i : Fin 8, (v[i]).wraps (hit v[i]) = true

/-- The model's test for a wrap, over the list of the counters, finds one by its index. -/
theorem any_wraps_iff (hit : Counter → Nat) (v : Vector Counter 8) :
    v.toList.any (fun c => c.wraps (hit c)) = true ↔ SomeWraps hit v := by
  simp only [List.any_eq_true, Vector.mem_toList_iff, Vector.mem_iff_getElem, SomeWraps]
  constructor
  · rintro ⟨c, ⟨i, hi, rfl⟩, hwrap⟩
    exact ⟨⟨i, hi⟩, hwrap⟩
  · rintro ⟨i, hwrap⟩
    exact ⟨v[i], ⟨i.val, i.isLt, rfl⟩, hwrap⟩

theorem bump_of_wrap {hit : Counter → Nat} {d : Device} (h : SomeWraps hit d.counters) (x : Site) :
    bump x hit d = latch x counterWrapBit { d with counters := vmap (fun c => c.add (hit c)) d.counters } :=
  if_pos ((any_wraps_iff hit d.counters).mpr h)

theorem bump_of_no_wrap {hit : Counter → Nat} {d : Device} (h : ¬ SomeWraps hit d.counters) (x : Site) :
    bump x hit d = { d with counters := vmap (fun c => c.add (hit c)) d.counters } :=
  if_neg (mt (any_wraps_iff hit d.counters).mp h)

/-- Each counter adds what it is given, whether one of them wraps or not. -/
theorem bump_counters (x : Site) (hit : Counter → Nat) (d : Device) :
    (bump x hit d).counters = vmap (fun c => c.add (hit c)) d.counters := by
  by_cases h : SomeWraps hit d.counters
  · rw [bump_of_wrap h, latch_counters]
  · rw [bump_of_no_wrap h]

/-! ### One event of a class (R165) -/

/-- What one event of a class gives a counter: one if the counter has the class and selects the sub-event. -/
def eventHit (cls : CountClass) (sub : Nat) (c : Counter) : Nat := if c.cls == cls && c.selector.getLsbD sub then 1 else 0

theorem count_eq_bump (x : Site) (cls : CountClass) (sub : Nat) (d : Device) : count x cls sub d = bump x (eventHit cls sub) d := rfl

theorem eventHit_eq_ite (cls : CountClass) (sub : Nat) (c : Counter) :
    eventHit cls sub c = if c.cls = cls ∧ c.selector.getLsbD sub = true then 1 else 0 := by
  simp [eventHit]

theorem eventHit_le_one (cls : CountClass) (sub : Nat) (c : Counter) : eventHit cls sub c ≤ 1 := by
  unfold eventHit
  split <;> omega

/-- Each counter after one event. -/
theorem count_counters_get (x : Site) (cls : CountClass) (sub : Nat) (d : Device) (i : Fin 8) :
    (count x cls sub d).counters[i] =
      if (d.counters[i]).cls = cls ∧ (d.counters[i]).selector.getLsbD sub = true then
        { d.counters[i] with value := ((d.counters[i]).value + 1) % 281474976710656 }
      else { d.counters[i] with value := (d.counters[i]).value % 281474976710656 } := by
  rw [count_eq_bump, bump_counters, vmap_get, eventHit_eq_ite]
  split <;> rfl

/-- A counter at its top that an event hits latches COUNTER_WRAP (R166). -/
theorem count_latches_wrap (x : Site) {cls : CountClass} {sub : Nat} {d : Device} {i : Fin 8}
    (hhit : (d.counters[i]).cls = cls ∧ (d.counters[i]).selector.getLsbD sub = true)
    (htop : (d.counters[i]).value = 281474976710655) : (count x cls sub d).latched.getLsbD 10 = true := by
  have hwraps : SomeWraps (eventHit cls sub) d.counters := ⟨i, by
    rw [Counter.wraps_iff, eventHit_eq_ite, if_pos hhit, htop]⟩
  rw [count_eq_bump, bump_of_wrap hwraps, latch_latched, BitVec.getLsbD_or, show counterWrapBit.getLsbD 10 = true from rfl,
    Bool.or_true]

/-- An event that finds every counter below its top changes nothing but the counters. -/
theorem count_frame_of_below_top (x : Site) (cls : CountClass) (sub : Nat) {d : Device}
    (hbelow : ∀ i : Fin 8, (d.counters[i]).value < 281474976710655) :
    count x cls sub d = { d with counters := (count x cls sub d).counters } := by
  have hnone : ¬ SomeWraps (eventHit cls sub) d.counters := by
    rintro ⟨i, hwrap⟩
    rw [Counter.wraps_iff] at hwrap
    have := hbelow i
    have := eventHit_le_one cls sub d.counters[i]
    omega
  rw [count_eq_bump, bump_of_no_wrap hnone]

/-! ### SetCounter (R167) -/

/-- The row of SetCounter serves the request with the counters' owner. -/
theorem exec_setCounter (p : Port) (s : State) : exec (.setCounter p) s = serve .setCounter p ownSetCounter s := by
  rfl

theorem classOfCode_classCode (cls : CountClass) : classOfCode (BitVec.ofNat 8 (classCode cls)).toNat = some cls := by
  cases cls <;> rfl

theorem classOfCode_eq_none {n : Nat} (h : 14 ≤ n) : classOfCode n = none := by
  obtain ⟨m, rfl⟩ := Nat.exists_eq_add_of_le' h
  rfl

theorem finOf_ofNat_val (i : Fin 8) : finOf 8 (BitVec.ofNat 8 i.val).toNat = some i := by
  have hval : (BitVec.ofNat 8 i.val).toNat = i.val := by simp; omega
  rw [hval, finOf_val]

/-- SetCounter with an index and a class it knows: the counter starts again at 0 with the selector bits the class names, and the reply
carries the three fields where bits were taken off. -/
theorem ownSetCounter_of_codes {r : Request} {i : Fin 8} {cls : CountClass} {sel : Byte}
    (hbody : r.body = [BitVec.ofNat 8 i.val, BitVec.ofNat 8 (classCode cls), sel]) (s : State) :
    ownSetCounter r s =
      ⟨s.setDev { s.dev with counters := s.dev.counters.set i ⟨cls, sel &&& classBits cls, 0⟩ },
        if sel &&& classBits cls = sel then .ok else .okClamped,
        if sel &&& classBits cls = sel then []
          else [BitVec.ofNat 8 i.val, BitVec.ofNat 8 (classCode cls), sel &&& classBits cls]⟩ := by
  have hindex : finOf 8 (byteAt r.body 0).toNat = some i := by rw [hbody]; exact finOf_ofNat_val i
  have hclass : classOfCode (byteAt r.body 1).toNat = some cls := by rw [hbody]; exact classOfCode_classCode cls
  have hsel : byteAt r.body 2 = sel := by rw [hbody]; rfl
  simp only [ownSetCounter, hindex, hclass, hsel, beBytes_one]
  split <;> rfl

/-- SetCounter with an index above 7 or a class code above 13 is refused. -/
theorem ownSetCounter_of_bad_code {r : Request} {index cls sel : Byte} (hbody : r.body = [index, cls, sel])
    (hbad : 8 ≤ index.toNat ∨ 14 ≤ cls.toNat) (s : State) : ownSetCounter r s = .refuse s .badField := by
  have hindex : byteAt r.body 0 = index := by rw [hbody]; rfl
  have hclass : byteAt r.body 1 = cls := by rw [hbody]; rfl
  rcases hbad with hlarge | hunknown
  · simp [ownSetCounter, hindex, finOf_eq_none hlarge]
  · simp [ownSetCounter, hclass, classOfCode_eq_none hunknown]

/-! ### ClearCounters (R169) -/

/-- The row of ClearCounters serves the request with the counters' owner. -/
theorem exec_clearCounters (p : Port) (s : State) : exec (.clearCounters p) s = serve .clearCounters p ownClearCounters s := by
  rfl

/-- A counter with its value back at 0 (R169). -/
def Counter.cleared (c : Counter) : Counter := { c with value := 0 }

@[simp] theorem Counter.cleared_cleared (c : Counter) : c.cleared.cleared = c.cleared := rfl

/-- One turn of the clearing: counter `i` is cleared where bit `i` of the byte names it. -/
def clearIfNamed (b : Byte) (v : Vector Counter 8) (i : Fin 8) : Vector Counter 8 :=
  if b.getLsbD i.val then vmodify v i Counter.cleared else v

theorem clearCounters_eq_foldl (b : Byte) (v : Vector Counter 8) :
    clearCounters b v = (List.finRange 8).foldl (clearIfNamed b) v := rfl

theorem clearIfNamed_get_self (b : Byte) (v : Vector Counter 8) (i : Fin 8) :
    (clearIfNamed b v i)[i] = if b.getLsbD i.val then (v[i]).cleared else v[i] := by
  unfold clearIfNamed
  split
  · exact vmodify_get_self v i _
  · rfl

theorem clearIfNamed_get_other (b : Byte) (v : Vector Counter 8) {i j : Fin 8} (h : j ≠ i) : (clearIfNamed b v i)[j] = v[j] := by
  unfold clearIfNamed
  split
  · exact vmodify_get_other v h _
  · rfl

/-- The counters after the turns of some indices: one that is named and has had its turn is cleared. Two turns of one index clear once. -/
theorem foldl_clearIfNamed_get (b : Byte) (l : List (Fin 8)) (v : Vector Counter 8) (j : Fin 8) :
    (l.foldl (clearIfNamed b) v)[j] = if j ∈ l ∧ b.getLsbD j.val = true then (v[j]).cleared else v[j] := by
  induction l generalizing v with
  | nil => simp
  | cons i l ih =>
    rw [List.foldl_cons, ih]
    by_cases hji : j = i
    · subst hji
      rw [clearIfNamed_get_self]
      cases b.getLsbD j.val <;> simp
    · rw [clearIfNamed_get_other b v hji]
      simp [hji]

theorem clearCounters_get (b : Byte) (v : Vector Counter 8) (i : Fin 8) :
    (clearCounters b v)[i] = if b.getLsbD i.val then (v[i]).cleared else v[i] := by
  rw [clearCounters_eq_foldl, foldl_clearIfNamed_get]
  simp

/-! ### SnapshotCounters (R168) -/

/-- The row of SnapshotCounters serves the request with the counters' owner. -/
theorem exec_snapshotCounters (p : Port) (s : State) : exec (.snapshotCounters p) s = serve .snapshotCounters p ownSnapshotCounters s := by
  rfl

/-- The eight bytes of one counter in a snapshot (R168). -/
def counterBytes (c : Counter) : Bytes := BitVec.ofNat 8 (classCode c.cls) :: c.selector :: beBytes 6 c.value

@[simp] theorem length_counterBytes (c : Counter) : (counterBytes c).length = 8 := by simp [counterBytes]

theorem encodeCounters_eq_flatMap (v : Vector Counter 8) : encodeCounters v = v.toList.flatMap counterBytes := by
  simp only [encodeCounters, beBytes_one]
  rfl

theorem length_encodeCounters (v : Vector Counter 8) : (encodeCounters v).length = 64 := by
  simp [encodeCounters_eq_flatMap, List.length_flatMap]

/-- Of runs of one length put together, run `i` stands at `i` times the length. -/
theorem take_drop_flatMap {α β : Type} {f : α → List β} {k : Nat} (hk : ∀ a, (f a).length = k) (l : List α) (i : Nat)
    (hi : i < l.length) : ((l.flatMap f).drop (k * i)).take k = f l[i] := by
  induction l generalizing i with
  | nil => simp at hi
  | cons a l ih =>
    rw [List.flatMap_cons]
    cases i with
    | zero => rw [Nat.mul_zero, List.drop_zero, List.take_left' (hk a), List.getElem_cons_zero]
    | succ i =>
      have hpast : k * (i + 1) = (f a).length + k * i := by rw [hk, Nat.mul_succ, Nat.add_comm]
      rw [hpast, ← List.drop_drop, List.drop_left, ih i (by simpa using hi), List.getElem_cons_succ]

theorem encodeCounters_field (v : Vector Counter 8) (i : Fin 8) :
    ((encodeCounters v).drop (8 * i.val)).take 8 = counterBytes v[i] := by
  rw [encodeCounters_eq_flatMap, take_drop_flatMap length_counterBytes _ _ (by simp)]
  simp

/-- Settles O32: each kind is received as one with a single body length, each request in service is answered by its owner, and one event
adds to each counter by its class and selector, latching COUNTER_WRAP where one passes its top. -/
theorem countersCountAndAnswer : Obligations.CountersCountAndAnswer := by
  refine ⟨?_, ?_, ?_, fun p r s => ⟨fun i cls sel hserve hbody => ?_, fun index cls sel hserve hbody hbad => ?_, fun b hserve hbody => ?_,
    fun hserve => ?_⟩, fun x cls sub d => ⟨count_counters_get x cls sub d,
    fun ⟨_, hhit, htop⟩ => count_latches_wrap x hhit htop, count_frame_of_below_top x cls sub⟩⟩
  · exact Kind.received_of_serve (owner := fun _ => ownSetCounter) (fun _ => rfl) (fun _ => rfl) (fun ph _ => by cases ph <;> rfl)
      exec_setCounter
  · exact Kind.received_of_serve (owner := fun _ => ownSnapshotCounters) (fun _ => rfl) (fun _ => rfl) (fun ph _ => by cases ph <;> rfl)
      exec_snapshotCounters
  · exact Kind.received_of_serve (owner := fun _ => ownClearCounters) (fun _ => rfl) (fun _ => rfl) (fun ph _ => by cases ph <;> rfl)
      exec_clearCounters
  · rw [exec_setCounter, serve_serving hserve, ownSetCounter_of_codes hbody]
  · rw [exec_setCounter, serve_serving hserve, ownSetCounter_of_bad_code hbody hbad]
    rfl
  · refine ⟨clearCounters b s.dev.counters, ?_, clearCounters_get b s.dev.counters⟩
    have hnamed : byteAt r.body 0 = b := by rw [hbody]; rfl
    rw [exec_clearCounters, serve_serving hserve, ownClearCounters, hnamed]
    rfl
  · refine ⟨encodeCounters s.dev.counters, ?_, length_encodeCounters _, encodeCounters_field s.dev.counters⟩
    rw [exec_snapshotCounters, serve_serving hserve, ownSnapshotCounters]

end Sys2Proof.Machine
end

section
/-! PROOFS. The fixed figures of the part (R182) and the clearing of latched conditions (R178): the answers of the two owners, and what a
recomputed summary changes of its port. -/

namespace Sys2Proof.Machine

/-! ### ReadIdentity (R182) -/

/-- The row of ReadIdentity serves the request with the figures' owner. -/
theorem exec_readIdentity (p : Port) (s : State) : exec (.readIdentity p) s = serve .readIdentity p ownReadIdentity s := by
  rfl

/-- The fixed figures byte by byte, in the order of R182. -/
theorem identity_eq : identity = [0x26, 0x40, 1, 40, 1, 0, 4, 0, 0x10, 0, 64, 4, 32, 64, 1, 0, 32, 8, 8, 16] := by
  rfl

/-- Settles O16: the check at the taking is that of a kind with an empty body, and a request in service is answered with the figures. -/
theorem readIdentityReply : Obligations.ReadIdentityReply := by
  refine ⟨?_, fun p r s hserve => ?_⟩
  · exact Kind.received_of_serve (owner := fun _ => ownReadIdentity) (fun _ => rfl) (fun _ => rfl) (fun ph _ => by cases ph <;> rfl)
      exec_readIdentity
  · rw [exec_readIdentity, serve_serving hserve, ownReadIdentity, identity_eq]

/-! ### What a recomputed summary changes (R179, R180) -/

/-- Of its port, a recomputed summary changes itself and, with an Attention, the transmitter. -/
theorem refreshPort_frame (word : BitVec 16) (q : PortState) :
    refreshPort word q = { q with summary := (refreshPort word q).summary, tx := (refreshPort word q).tx } := by
  unfold refreshPort
  dsimp only
  split <;> rfl

/-- A recomputed summary tells whether the port's mask selects a condition that is present. -/
theorem refreshPort_summary_eq (word : BitVec 16) (q : PortState) : (refreshPort word q).summary = ((word &&& q.mask) != 0) := by
  have hok := refreshPort_summary word q
  rwa [PortState.summaryOk, refreshPort_mask] at hok

/-- Of the device, the recomputed summaries change the two ports. -/
theorem refresh_frame (x : Site) (d : Device) : refresh x d = { d with net := (refresh x d).net, maint := (refresh x d).maint } := rfl

/-- The level conditions depend on neither the latched ones nor the ports (R11). -/
@[simp] theorem levelWord_refresh (x : Site) (d : Device) : levelWord x (refresh x d) = levelWord x d := rfl

/-! ### ClearConditions (R178) -/

/-- The row of ClearConditions serves the request with the conditions' owner. -/
theorem exec_clearConditions (p : Port) (s : State) : exec (.clearConditions p) s = serve .clearConditions p ownClearConditions s := by
  rfl

/-- The device with the latched conditions a word names cleared. -/
def Device.clearLatched (word : BitVec 16) (d : Device) : Device := { d with latched := d.latched &&& ~~~word }

@[simp] theorem Device.clearLatched_latched (word : BitVec 16) (d : Device) :
    (d.clearLatched word).latched = d.latched &&& ~~~word := rfl
@[simp] theorem Device.clearLatched_port (word : BitVec 16) (d : Device) (q : Port) : (d.clearLatched word).port q = d.port q := by
  cases q <;> rfl
@[simp] theorem levelWord_clearLatched (x : Site) (word : BitVec 16) (d : Device) :
    levelWord x (d.clearLatched word) = levelWord x d := rfl

/-- ClearConditions clears what the word of the body names, recomputes both summaries, and answers with the conditions that are left. -/
theorem ownClearConditions_eq (r : Request) (s : State) :
    ownClearConditions r s =
      ⟨s.setDev (refresh s.site (s.dev.clearLatched (bodyWord r))), .ok,
        beBytes 2 (conditionWord s.site (refresh s.site (s.dev.clearLatched (bodyWord r)))).toNat⟩ := rfl

/-- Settles O20: the check at the taking is that of a kind with one body length, and the device the owner leaves is the one with the named
conditions cleared and both summaries recomputed. -/
theorem conditionsAreCleared : Obligations.ConditionsAreCleared := by
  refine ⟨?_, fun p r s hserve => ⟨refresh s.site (s.dev.clearLatched (bodyWord r)), ?_, ?_, ?_, ?_, fun q => ⟨?_, ?_⟩⟩⟩
  · exact Kind.received_of_serve (owner := fun _ => ownClearConditions) (fun _ => rfl) (fun _ => rfl) (fun ph _ => by cases ph <;> rfl)
      exec_clearConditions
  · rw [exec_clearConditions, serve_serving hserve, ownClearConditions_eq]
  · rw [refresh_latched, Device.clearLatched_latched, bodyWord]
  · rw [levelWord_refresh, levelWord_clearLatched]
  · exact refresh_frame s.site (s.dev.clearLatched (bodyWord r))
  · rw [port_refresh, Device.clearLatched_port, conditionWord_refresh, refreshPort_summary_eq]
  · rw [port_refresh, Device.clearLatched_port]
    exact refreshPort_frame _ _

end Sys2Proof.Machine
end

section
/-! PROOFS. The table of ReadStatus (R181): where a field stands in bytes written field after field, the range of each code of the table,
and the 56 bytes of the reply as one such table. -/

namespace Sys2Proof.Machine

/-! ### Bytes written field after field -/

/-- The bytes of a table of fields, each given by its size and its value. -/
def writeFields (fs : List (Nat × Nat)) : Bytes := fs.flatMap fun f => beBytes f.1 f.2

/-- The fields of a table stand in `b` one behind the other from `off` on, each up to what fits in its size. -/
def FieldsFrom (b : Bytes) : Nat → List (Nat × Nat) → Prop
  | _, [] => True
  | off, f :: fs => fieldAt b off f.1 = f.2 % 256 ^ f.1 ∧ FieldsFrom b (off + f.1) fs

theorem length_writeFields (fs : List (Nat × Nat)) : (writeFields fs).length = (fs.map Prod.fst).sum := by
  simp only [writeFields, List.length_flatMap, length_beBytes]

/-- A run of written bytes reads as the number written, whatever stands before and behind it. -/
theorem fieldAt_beBytes_between (front back : Bytes) (k n : Nat) :
    fieldAt (front ++ (beBytes k n ++ back)) front.length k = n % 256 ^ k := by
  rw [fieldAt, List.drop_left, List.take_left' (length_beBytes k n), beNat_beBytes]

theorem fieldsFrom_append_writeFields (front : Bytes) (fs : List (Nat × Nat)) :
    FieldsFrom (front ++ writeFields fs) front.length fs := by
  induction fs generalizing front with
  | nil => trivial
  | cons f fs ih =>
    have hsplit : writeFields (f :: fs) = beBytes f.1 f.2 ++ writeFields fs := List.flatMap_cons
    refine ⟨?_, ?_⟩
    · rw [hsplit, fieldAt_beBytes_between]
    · simpa [hsplit] using ih (front ++ beBytes f.1 f.2)

/-- The bytes of a table hold its fields in order. -/
theorem fieldsFrom_writeFields (fs : List (Nat × Nat)) : FieldsFrom (writeFields fs) 0 fs := fieldsFrom_append_writeFields [] fs

/-! ### The values that fit in their fields -/

theorem Phase.code_mod (ph : Phase) : ph.code % 256 = ph.code := by cases ph <;> rfl
theorem Control.code_mod (c : Control) : c.code % 256 = c.code := by cases c <;> rfl
theorem Discipline.code_mod (c : Discipline) : c.code % 256 = c.code := by cases c <;> rfl
theorem OutputMode.code_mod (m : OutputMode) : m.code % 256 = m.code := by cases m <;> rfl
theorem HostChoice.code_mod (c : HostChoice) : c.code % 256 = c.code := by cases c <;> rfl
theorem Delin.code_mod (c : Delin) : c.code % 256 = c.code := by cases c <;> rfl
theorem flagCode_mod (b : Bool) : flagCode b % 256 = flagCode b := by cases b <;> rfl

theorem word16_mod (w : BitVec 16) : w.toNat % 65536 = w.toNat := Nat.mod_eq_of_lt w.isLt
theorem word32_mod (w : BitVec 32) : w.toNat % 4294967296 = w.toNat := Nat.mod_eq_of_lt w.isLt

/-- Three flags as one byte, as the mute causes are sent (R181). -/
theorem flagCodes_mod (a b c : Bool) :
    (flagCode a + 2 * flagCode b + 4 * flagCode c) % 256 = flagCode a + 2 * flagCode b + 4 * flagCode c := by
  have flag_le (x : Bool) : flagCode x ≤ 1 := by cases x <;> decide
  have := flag_le a
  have := flag_le b
  have := flag_le c
  omega

/-- The last time label as a number, 0 where there is none (R181). -/
theorem labelCode_mod (label : Option (BitVec 32)) : label.elim 0 BitVec.toNat % 4294967296 = label.elim 0 BitVec.toNat := by
  cases label with
  | none => rfl
  | some l => exact word32_mod l

/-! ### ReadStatus (R181) -/

/-- The row of ReadStatus serves the request with the table's owner. -/
theorem exec_readStatus (p : Port) (s : State) : exec (.readStatus p) s = serve .readStatus p (ownReadStatus p) s := by
  rfl

/-- The table of R181: the size and the value of each field, in the order of sending. -/
def statusTable (p : Port) (s : State) : List (Nat × Nat) :=
  let tb := s.site.tb
  let d := s.dev
  [(1, s.site.phase.code), (1, s.control.code), (1, flagCode s.lockout), (2, (conditionWord s.site d).toNat),
    (2, (d.port p).mask.toNat), (1, flagCode (d.port p).summary),
    (1, tb.disc.code), (1, flagCode tb.present), (4, tb.secs.toNat), (3, tb.ticks), (1, tb.good), (1, tb.outliers), (3, tb.holdover),
    (1, flagCode tb.label.isSome), (4, tb.label.elim 0 BitVec.toNat),
    (1, (outputMode s.site d).code), (1, s.site.hostChoice.code),
    (1, flagCode (muteHost s.site) + 2 * flagCode (muteTime s.site) + 4 * flagCode (muteNoFeed d)),
    (1, d.intakeA.delin.code), (1, d.intakeB.delin.code),
    (1, d.em.credits), (1, slotCount d .free), (1, slotCount d .assembling), (1, slotCount d .pending), (1, slotCount d .queued),
    (1, slotCount d .splicing), (1, slotCount d .emitting), (2, d.cat.freeList.length),
    (1, d.arb.initial[0]), (1, d.arb.initial[1]), (1, d.arb.initial[2]), (1, d.arb.initial[3]), (1, d.arb.initial[4]),
    (1, d.asrun.queue.length), (1, vcount d.asrun.drafts Option.isSome), (4, d.asrun.next.toNat), (4, d.asrun.lost)]

theorem writePriorities_eq (v : Vector Nat 5) :
    writePriorities v = beBytes 1 v[0] ++ beBytes 1 v[1] ++ beBytes 1 v[2] ++ beBytes 1 v[3] ++ beBytes 1 v[4] := by
  have hlist : v.toList = [v[0], v[1], v[2], v[3], v[4]] :=
    List.ext_getElem (by simp) fun i hi _ => by
      have hi : i < 5 := by simpa using hi
      interval_cases i <;> simp
  simp [writePriorities, hlist]

/-- The bytes ReadStatus answers with are its table's. -/
theorem ownReadStatus_eq (p : Port) (r : Request) (s : State) : ownReadStatus p r s = ⟨s, .ok, writeFields (statusTable p s)⟩ := by
  simp only [ownReadStatus, statusSite, statusTime, statusOutput, statusPools, writePriorities_eq, writeFields, statusTable,
    List.flatMap_cons, List.flatMap_nil, List.append_nil, List.append_assoc]
  cases s.site.tb.label <;> rfl

/-- The sizes of the table add up to the 56 bytes of R181. -/
theorem length_statusBytes (p : Port) (s : State) : (writeFields (statusTable p s)).length = 56 := by
  simp [length_writeFields, statusTable]

/-- Settles O17: the check at the taking is that of a kind with an empty body, and the fields of the reply are those of the table. A code,
a flag or a word fits in its field; a count reads as its low bytes. -/
theorem readStatusReply : Obligations.ReadStatusReply := by
  refine ⟨?_, fun p r s hserve => ⟨writeFields (statusTable p s), ?_, length_statusBytes p s, ?_⟩⟩
  · exact Kind.received_of_serve (owner := ownReadStatus) (fun _ => rfl) (fun _ => rfl) (fun ph _ => by cases ph <;> rfl)
      exec_readStatus
  · rw [exec_readStatus, serve_serving hserve, ownReadStatus_eq]
  · have fields := fieldsFrom_writeFields (statusTable p s)
    generalize writeFields (statusTable p s) = b at fields ⊢
    simp only [statusTable, FieldsFrom, Nat.reduceAdd, Nat.reducePow, Phase.code_mod, Control.code_mod, Discipline.code_mod,
      OutputMode.code_mod, HostChoice.code_mod, Delin.code_mod, flagCode_mod, flagCodes_mod, word16_mod, word32_mod,
      labelCode_mod] at fields
    obtain ⟨phase, control, lockout, conditions, mask, summary,
      discipline, present, secs, ticks, good, outliers, holdover, hasLabel, label,
      mode, host, mutes, feedA, feedB,
      credits, free, assembling, pending, queued, splicing, emitting, blocks, emit, intakeA, intakeB, splice, load,
      records, drafts, number, lost, -⟩ := fields
    have priorities (i : Fin 5) : fieldAt b (41 + i.val) 1 = s.dev.arb.initial[i] % 256 :=
      match i with
      | 0 => emit
      | 1 => intakeA
      | 2 => intakeB
      | 3 => splice
      | 4 => load
    exact ⟨phase, control, lockout, conditions, mask, summary,
      discipline, present, secs, ticks, good, outliers, holdover, hasLabel, label,
      mode, host, mutes, feedA, feedB,
      credits, free, assembling, pending, queued, splicing, emitting, blocks, priorities,
      records, drafts, number, lost⟩

end Sys2Proof.Machine
end

section
/-! PROOFS. What every command keeps: the waiting commands, the law of control under lockout, the ticks of a second, the capacities, the
masks, the canonical memory and the summaries. Each is shown once for every row of the dispatch; the laws of the step follow. -/

namespace Sys2Proof.Machine

/-- What a step keeps of a state, as its laws say it. -/
structure KeepsLaws (s t : State) : Prop where
  lockout : LockoutLaw s → LockoutLaw t
  clock : ClockLaw s → ClockLaw t
  held : Held s.dev t.dev
  summary : SummariesOk s.site s.dev → SummariesOk t.site t.dev

/-- What a command keeps of a state: its laws, and the commands that wait. -/
structure Keeps (s t : State) : Prop extends KeepsLaws s t where
  pending : t.pending = s.pending

theorem Keeps.refl (s : State) : Keeps s s := ⟨⟨id, id, Held.refl _, id⟩, rfl⟩

theorem Keeps.trans {s t u : State} (h : Keeps s t) (g : Keeps t u) : Keeps s u :=
  ⟨⟨g.lockout ∘ h.lockout, g.clock ∘ h.clock, h.held.trans g.held, g.summary ∘ h.summary⟩, g.pending.trans h.pending⟩

/-- A device changed within its laws. -/
theorem Keeps.setDev {s : State} {d : Device} (h : Upper s.site s.dev d) : Keeps s (s.setDev d) :=
  ⟨⟨id, id, h.toHeld, h.summary⟩, rfl⟩

/-- Settings changed that no condition depends on. -/
theorem Keeps.setSite {s : State} {x : Site} (hticks : x.tb.ticks = s.site.tb.ticks) (hword : conditionWord x s.dev = conditionWord s.site s.dev) :
    Keeps s (s.setSite x) := by
  refine ⟨⟨id, fun h => ?_, Held.refl _, fun h => ?_⟩, rfl⟩
  · show x.tb.ticks < _
    rwa [hticks]
  · show SummariesOk x s.dev
    rwa [SummariesOk, hword]

/-- The site and the device changed together, with the summaries right at the end whatever went before. -/
theorem Keeps.setBoth {s : State} {x : Site} {d : Device} (hticks : ClockLaw s → x.tb.ticks < Config.ticksPerSecond)
    (hheld : Held s.dev d) (hsummary : SummariesOk x d) : Keeps s ((s.setSite x).setDev d) :=
  ⟨⟨id, hticks, hheld, fun _ => hsummary⟩, rfl⟩

/-- Recomputed summaries are right. -/
theorem refresh_summariesOk (x : Site) (d : Device) : SummariesOk x (refresh x d) :=
  ⟨refreshPort_summary _ _, refreshPort_summary _ _⟩

/-- The conditions depend on the site by its trust, its reference, its mode and the host choice alone (R11, R75). -/
theorem conditionWord_of_site {x y : Site} (hpresent : y.tb.present = x.tb.present) (htrusted : y.tb.trusted = x.tb.trusted)
    (hmode : y.timing.mode = x.timing.mode) (hhost : y.hostChoice = x.hostChoice) (d : Device) :
    conditionWord y d = conditionWord x d := by
  simp only [conditionWord, levelWord, outputMode, muteTime, muteHost, hpresent, htrusted, hmode, hhost]
  rfl

/-- The lines and the transmitter of a port do not touch the laws. -/
theorem setPort_keeps {s : State} (p : Port) (q : PortState)
    (hq : (s.dev.port p).queue.length ≤ Config.inputQueueSize → q.queue.length ≤ Config.inputQueueSize)
    (hm : q.mask = (s.dev.port p).mask) (hs : q.summary = (s.dev.port p).summary) : Keeps s (s.setDev (s.dev.setPort p q)) :=
  .setDev (Upper.setPort (Upper.refl _ _) p q hq hm hs)

/-! ### Requests -/

theorem takeNext_keeps (p : Port) (s : State) : Keeps s (takeNext p s) := by
  rcases takeNext_cases p s with h | ⟨r, rest, -, hq, h⟩
  · rw [h]; exact Keeps.refl s
  · rw [h]
    refine setPort_keeps p _ (fun hl => ?_) rfl rfl
    rw [hq] at hl
    exact Nat.le_of_succ_le hl

theorem sendReply_keeps (p : Port) (r : Request) (st : Status) (extra : Bytes) (s : State) : Keeps s (sendReply p r st extra s) :=
  setPort_keeps p _ id rfl rfl

/-- A command that answers a next state and keeps what every command keeps. -/
def Completes (s : State) (o : Host.Outcome State Fault Refusal) : Prop := ∃ t, o = .next t ∧ Keeps s t

theorem Completes.next {s t : State} (h : Keeps s t) : Completes s (.next t) := ⟨t, rfl, h⟩

/-- The row of a request completes when its owner's answer keeps the laws. -/
theorem serve_completes (k : Kind) (p : Port) {owner : Request → State → Answer} (howner : ∀ r s, Keeps s (owner r s).state) (s : State) :
    Completes s (serve k p owner s) := by
  rcases serve_cases k p owner s with h | ⟨r, st, h⟩ | ⟨r, -, -, -, h⟩
  · exact ⟨_, h, Keeps.refl s⟩
  · exact ⟨_, h, (takeNext_keeps p s).trans (sendReply_keeps p r st [] _)⟩
  · exact ⟨_, h, ((takeNext_keeps p s).trans (howner r _)).trans (sendReply_keeps p r _ _ _)⟩

theorem receiveByte_keeps (p : Port) (s : State) (b : Byte) : Keeps s (receiveByte p s b) :=
  (Keeps.setDev (rxByte_upper (Upper.refl _ _) p b)).trans (takeNext_keeps p _)

theorem receiveBytes_keeps (p : Port) (bytes : Bytes) (s : State) : Keeps s (bytes.foldl (receiveByte p) s) := by
  induction bytes generalizing s with
  | nil => exact Keeps.refl s
  | cons b bytes ih => exact (receiveByte_keeps p s b).trans (ih _)

/-! ### The owners of requests -/

theorem ownSetMask_keeps (p : Port) (r : Request) (s : State) : Keeps s (ownSetMask p r s).state := by
  have hmask (w : BitVec 16) : w &&& conditionBits &&& conditionBits = w &&& conditionBits := by
    rw [BitVec.and_assoc, BitVec.and_self]
  refine ⟨⟨id, id, Held.setPort (Held.refl _) p _ ?_ ?_, fun h => ?_⟩, rfl⟩
  · rw [refreshPort_queue]; exact id
  · intro _; rw [refreshPort_mask]; exact hmask _
  · have hport := refreshPort_summary (conditionWord s.site s.dev) { s.dev.port p with mask := bodyWord r &&& conditionBits }
    cases p
    · exact ⟨hport, h.2⟩
    · exact ⟨h.1, hport⟩

theorem ownClearConditions_keeps (r : Request) (s : State) : Keeps s (ownClearConditions r s).state :=
  .setDev (refresh_upper (Weak.setLatched (Weak.refl _) _).held)

theorem latch_keeps (s : State) (bits : BitVec 16) : Keeps s (s.setDev (latch s.site bits s.dev)) :=
  .setDev (latch_lower (Weak.refl _) bits).upper

/-- Control moved to a holder that lockout allows. -/
theorem moveControl_keeps {c : Control} (latched : Bool) {s : State} (h : s.lockout = true → c = .network) :
    Keeps s (moveControl c latched s) := by
  unfold moveControl
  have hlatch := latch_keeps s controlChangeBit
  split
  · exact ⟨⟨fun _ => h, id, hlatch.held, hlatch.summary⟩, rfl⟩
  · exact ⟨⟨fun _ => h, id, Held.refl _, id⟩, rfl⟩

theorem ownTakeLocal_keeps (r : Request) (s : State) : Keeps s (ownTakeLocal r s).state := by
  unfold ownTakeLocal
  split
  · exact Keeps.refl s
  · next h => exact moveControl_keeps _ (fun hl => absurd hl h)

theorem ownSetLockout_keeps (r : Request) (s : State) : Keeps s (ownSetLockout r s).state := by
  unfold ownSetLockout
  split
  · exact Keeps.refl s
  · have h := moveControl_keeps (c := .network) (s.control == .local_) (s := { s with lockout := true }) (fun _ => rfl)
    refine ⟨⟨fun _ _ => ?_, h.clock, h.held, h.summary⟩, h.pending⟩
    unfold moveControl
    split <;> rfl
  · exact ⟨⟨fun _ hl => absurd hl (by simp [Answer.ok]), id, Held.refl _, id⟩, rfl⟩

theorem ownRelease_keeps (r : Request) (s : State) : Keeps s (ownRelease r s).state := by
  unfold ownRelease
  split
  · exact Keeps.refl s
  · exact .setSite rfl rfl

theorem restartDevice_held (x : Site) (d : Device) : Held d (restartDevice x d) := by
  have drafts : Held d (restartDrafts d) := (restartDrafts_lower (Lower.refl x d)).toWeak.held
  have intakes := intakeRestart_held (intakeRestart_held drafts .a) .b
  have selector := intakes.trans (selectorRestart_upper (Upper.refl x _)).toHeld
  have emission := selector.trans (emissionRestart_lower (x := x) (Lower.refl x _)).toWeak.held
  have splice := emission.trans (spliceRestart_lower (x := x) (Lower.refl x _)).toWeak.held
  have loads := splice.trans (abortLoads_upper (Upper.refl x _)).toHeld
  have settled := loads.trans (settleRestart_lower (x := x) (Lower.refl x _)).toWeak.held
  exact (refresh_upper (x := x) settled).toHeld

theorem ownSiteRestart_keeps (r : Request) (s : State) : Keeps s (ownSiteRestart r s).state :=
  .setBoth id (restartDevice_held _ _) (refresh_summariesOk _ _)

theorem ownSetWindow_keeps (r : Request) (s : State) : Keeps s (ownSetWindow r s).state := by
  unfold ownSetWindow
  split
  · exact Keeps.refl s
  · exact .setSite rfl rfl

theorem ownSetDefaultAction_keeps (r : Request) (s : State) : Keeps s (ownSetDefaultAction r s).state := by
  unfold ownSetDefaultAction
  split
  · exact .setSite rfl rfl
  · exact .setSite rfl rfl
  · exact Keeps.refl s

theorem ownSetSelector_keeps (r : Request) (s : State) : Keeps s (ownSetSelector r s).state := by
  unfold ownSetSelector
  dsimp only
  split
  · exact Keeps.refl s
  · next m _ =>
    let x : Site := { s.site with selMode := m, pairWait := min (fieldAt r.body 1 4) 5000000 }
    refine Keeps.trans (t := s.setSite x) (.setSite rfl rfl) (.setDev ?_)
    split
    · exact decideHeld_upper (Upper.refl x s.dev)
    · exact Upper.refl x s.dev

theorem ownSetTime_keeps (r : Request) (s : State) : Keeps s (ownSetTime r s).state :=
  .setSite (x := { s.site with tb := { s.site.tb with label := some (BitVec.ofNat 32 (fieldAt r.body 0 4)) } }) rfl rfl

theorem ownSetTimebase_keeps (r : Request) (s : State) : Keeps s (ownSetTimebase r s).state := by
  unfold ownSetTimebase
  dsimp only
  split <;> exact .setSite rfl rfl

theorem ownSetSite_keeps (r : Request) (s : State) : Keeps s (ownSetSite r s).state := by
  unfold ownSetSite
  dsimp only
  split
  · exact Keeps.refl s
  · next t _ =>
    split
    · exact .setBoth id ((Lower.refl _ s.dev).setEm _ |>.upper.then (refresh_lower (Weak.refl _))).toHeld (refresh_summariesOk _ _)
    · split
      · exact Keeps.refl s
      · next h =>
        have hmode : t.mode = s.site.timing.mode := by rw [← not_not.mp h]
        exact .setSite rfl (conditionWord_of_site (x := s.site) (y := { s.site with timing := t }) rfl rfl hmode rfl s.dev)

theorem ownSetOutputMode_keeps (r : Request) (s : State) : Keeps s (ownSetOutputMode r s).state := by
  unfold ownSetOutputMode
  dsimp only
  split
  · exact Keeps.refl s
  · have h := fun x => refresh_upper (x := x) (Held.refl s.dev)
    have g := fun x => afterModeChange_lower (Lower.refl x (refresh x s.dev))
    exact .setBoth id ((h _).then (g _)).toHeld ((g _).summary (refresh_summariesOk _ _))

theorem ownSetArbiter_keeps (r : Request) (s : State) : Keeps s (ownSetArbiter r s).state := by
  have h := fun a => Keeps.setDev (s := s) ((Lower.refl s.site s.dev).setArb a).upper
  unfold ownSetArbiter
  dsimp only
  split <;> exact h _

theorem openClip_upper {x : Site} {d0 d : Device} (h : Upper x d0 d) (o : ClipOpenFields) (place : PlaceNo) (c : CtxNo) :
    Upper x d0 (openClip o place c d) := h.setCat _ id

theorem ownClipOpen_keeps (r : Request) (s : State) : Keeps s (ownClipOpen r s).state := by
  unfold ownClipOpen
  dsimp only
  repeat' split
  all_goals first
    | exact Keeps.refl s
    | exact .setDev (openClip_upper (Upper.refl _ _) _ _ _)

/-- Cells taken by a context while the load FIFO has room for all of them. -/
theorem takeCells_upper {x : Site} {d0 : Device} (c : CtxNo) (cells : List Bytes) (d : Device) (h : Upper x d0 d)
    (hroom : cells ≠ [] → d.cat.fifo.length + cells.length ≤ Config.loadFifoSize) :
    Upper x d0 (cells.foldl (fun d cell => takeCell c cell d) d) := by
  induction cells generalizing d with
  | nil => exact h
  | cons cell cells ih =>
    have hroom := hroom (List.cons_ne_nil _ _)
    rw [List.length_cons] at hroom
    have hfifo : (takeCell c cell d).cat.fifo.length ≤ d.cat.fifo.length + 1 := takeCell_fifo c cell d
    exact ih (takeCell c cell d) (takeCell_upper h c cell (by omega)) (fun _ => by omega)

theorem ignoreCells_upper {x : Site} {d0 d : Device} (h : Upper x d0 d) (id : ClipId) (n : Nat) : Upper x d0 (ignoreCells id n d) :=
  updClip_upper h _ _

theorem ownClipData_keeps (r : Request) (s : State) : Keeps s (ownClipData r s).state := by
  unfold ownClipData
  dsimp only
  repeat' split
  all_goals try exact Keeps.refl s
  next hfull =>
    refine .setDev (askLoad_upper (ignoreCells_upper (takeCells_upper _ _ _ (Upper.refl _ _) fun hsome => ?_) _ _))
    have := List.length_pos_iff.mpr hsome
    rw [List.length_take] at *
    omega

theorem ownClipAbort_keeps (r : Request) (s : State) : Keeps s (ownClipAbort r s).state := by
  have aborted (i : PlaceNo) : Keeps s (s.setDev (askLoad s.site (abortLoad i s.dev))) :=
    .setDev (askLoad_upper (abortLoad_upper (Upper.refl _ _) i))
  unfold ownClipAbort
  dsimp only
  split
  · exact Keeps.refl s
  · split
    · exact Keeps.refl s
    · split
      · exact Keeps.refl s
      · split
        · exact Keeps.refl s
        · exact aborted _

theorem ownClipDelete_keeps (r : Request) (s : State) : Keeps s (ownClipDelete r s).state := by
  have deleted (i : PlaceNo) (c : Option ClipRecord) (bs : List BlockNo) : Keeps s (s.setDev (setPlace i c (returnBlocks bs s.dev))) :=
    .setDev (setPlace_lower (returnBlocks_lower (Lower.refl _ _) _) _ _).upper
  unfold ownClipDelete
  dsimp only
  split
  · exact Keeps.refl s
  · split
    · exact Keeps.refl s
    · split
      · exact Keeps.refl s
      · split
        · exact Keeps.refl s
        · split
          · exact Keeps.refl s
          · exact deleted _ _ _

theorem ownClipInfo_keeps (r : Request) (s : State) : Keeps s (ownClipInfo r s).state := by
  unfold ownClipInfo
  dsimp only
  repeat' split
  all_goals exact Keeps.refl s

theorem ownCatalogueRead_keeps (r : Request) (s : State) : Keeps s (ownCatalogueRead r s).state := by
  unfold ownCatalogueRead
  dsimp only
  split <;> exact Keeps.refl s

theorem ownSetSlot_keeps (r : Request) (s : State) : Keeps s (ownSetSlot r s).state := by
  unfold ownSetSlot
  split
  · exact Keeps.refl s
  · exact .setSite rfl rfl

theorem ownListInsert_keeps (r : Request) (s : State) : Keeps s (ownListInsert r s).state := by
  have inserted (id : ClipId) (e : EntryNo) (y : RingEntry) (l : ListNo) (ring : List EntryNo) (known : Bool) (place : PlaceNo) :
      Keeps s (s.setDev (raiseUse id (setEntry e (some y) (setRing l ring
        (if known = true then s.dev else setPlace place (some (ClipRecord.fresh id)) s.dev))))) := by
    refine .setDev (raiseUse_lower (setEntry_lower (setRing_lower ?_ l ring) e _) id).upper
    split
    · exact Lower.refl _ _
    · exact setPlace_lower (Lower.refl _ _) _ _
  unfold ownListInsert
  dsimp only
  split
  · exact Keeps.refl s
  · split
    · exact Keeps.refl s
    · split
      · exact Keeps.refl s
      · split
        · exact Keeps.refl s
        · split
          · exact Keeps.refl s
          · exact inserted _ _ _ _ _ _ _

theorem ownListRemove_keeps (r : Request) (s : State) : Keeps s (ownListRemove r s).state := by
  unfold ownListRemove
  dsimp only
  repeat' split
  · exact Keeps.refl s
  · exact .setDev (unlinkEntry_lower (Lower.refl _ _) _).upper
  · exact .setDev (setEntry_lower (Lower.refl _ _) _ _).upper
  · exact Keeps.refl s

theorem ownListRead_keeps (r : Request) (s : State) : Keeps s (ownListRead r s).state := by
  unfold ownListRead
  dsimp only
  repeat' split
  all_goals exact Keeps.refl s

theorem ownSetProgramme_keeps (r : Request) (s : State) : Keeps s (ownSetProgramme r s).state := by
  unfold ownSetProgramme
  dsimp only
  repeat' split
  all_goals first
    | exact Keeps.refl s
    | exact .setSite rfl rfl

theorem ownCueAnswer_keeps (r : Request) (s : State) : Keeps s (ownCueAnswer r s).state := by
  unfold ownCueAnswer
  dsimp only
  repeat' split
  all_goals first
    | exact Keeps.refl s
    | exact .setDev (takeAnswer_lower (Lower.refl _ _) _ _ _ _).upper

theorem ownProgrammeReset_keeps (r : Request) (s : State) : Keeps s (ownProgrammeReset r s).state := by
  unfold ownProgrammeReset
  dsimp only
  split
  · exact Keeps.refl s
  · exact .setDev (askSplice_lower (closeBreaks_lower (endProgrammeWork_lower (emptyQueue_lower (Lower.refl _ _) _ _ _ _) _) _ _)).upper

theorem ownAsRunFetch_keeps (r : Request) (s : State) : Keeps s (ownAsRunFetch r s).state := by
  unfold ownAsRunFetch
  dsimp only
  split
  · exact Keeps.refl s
  · have fetched : Held s.dev (s.dev.setAsRun { s.dev.asrun with queue := s.dev.asrun.queue.drop (byteAt r.body 0).toNat }) :=
      { Held.refl s.dev with asrun := fifo_drop _ _ }
    exact .setDev (refresh_upper fetched)

theorem ownSetCounter_keeps (r : Request) (s : State) : Keeps s (ownSetCounter r s).state := by
  have h := fun v => Keeps.setDev (s := s) ((Lower.refl s.site s.dev).setCounters v).upper
  unfold ownSetCounter
  dsimp only
  repeat' split
  · exact h _
  · exact h _
  · exact Keeps.refl s

theorem ownClearCounters_keeps (r : Request) (s : State) : Keeps s (ownClearCounters r s).state :=
  .setDev ((Lower.refl s.site s.dev).setCounters _).upper

/-! ### Site time -/

/-- An event of the timebase that leaves the ticks within a second keeps the laws: the summaries follow the conditions it changes. -/
theorem applyEvent_keeps {ev : TimeEvent} {s : State} (hticks : ClockLaw s → ev.tb.ticks < Config.ticksPerSecond) :
    Keeps s (applyEvent ev s) := by
  let x : Site := { s.site with tb := ev.tb }
  let conditions := if ev.step.isSome then latch x timeStepBit (count x .time 3 s.dev) else refresh x s.dev
  have held : Held s.dev conditions := by
    unfold conditions
    split
    · exact (latch_lower (count_lower (Lower.refl x s.dev) _ _).toWeak _).toWeak.held
    · exact (refresh_upper (x := x) (Held.refl s.dev)).toHeld
  have right : SummariesOk x conditions := by
    unfold conditions
    split <;> exact refresh_summariesOk _ _
  have notice : Upper x conditions
      (if ev.step.isSome || ev.change != .none then takeNotice x ⟨ev.step, ev.change⟩ conditions else conditions) := by
    split
    · exact (takeNotice_lower (Lower.refl x _) _).upper
    · exact Upper.refl x _
  exact .setBoth hticks (held.trans notice.toHeld) (notice.summary right)

@[simp] theorem Timebase.align_ticks (tb : Timebase) (e : Int) : (tb.align e).ticks = 0 := by
  unfold Timebase.align
  split <;> rfl

@[simp] theorem boundary_ticks (tb : Timebase) : (boundary tb).tb.ticks = tb.ticks := by
  unfold boundary
  repeat' split
  all_goals rfl

@[simp] theorem plainAlign_ticks (tb : Timebase) (e : Int) : (plainAlign tb e).tb.ticks = 0 := by
  unfold plainAlign
  split
  · exact tb.align_ticks e
  · rw [boundary_ticks, tb.align_ticks]

/-- The ticks after an event: at 0, or as they were. -/
def TicksKept (tb : Timebase) (ev : TimeEvent) : Prop := ev.tb.ticks = 0 ∨ ev.tb.ticks = tb.ticks

theorem outlierPulse_ticks (tb : Timebase) (e : Int) : TicksKept tb (outlierPulse tb e) := by
  unfold outlierPulse
  split
  · exact .inl (tb.align_ticks e)
  · exact .inr rfl

theorem judgePulse_ticks (tb : Timebase) (e : Int) (good : Bool) : TicksKept tb (judgePulse tb e good) := by
  unfold judgePulse
  repeat' split
  all_goals first
    | exact outlierPulse_ticks tb e
    | exact .inl (plainAlign_ticks _ e)
    | exact .inl (tb.align_ticks e)
    | exact .inr rfl

theorem takePulse_ticks (tb : Timebase) (e : Int) (good : Bool) : TicksKept tb (takePulse tb e good) := by
  unfold takePulse
  dsimp only
  repeat' split
  all_goals first
    | exact judgePulse_ticks { tb with label := none, pulseSeen := true } e good
    | exact .inl rfl

@[simp] theorem missPulse_ticks (tb : Timebase) : (missPulse tb).ticks = tb.ticks := by
  unfold missPulse
  split <;> rfl

/-- An intake one period later (R14). -/
def Intake.elapsed (i : Intake) : Intake := if i.inSync then { i with silence := i.silence + 1 } else i

/-- A port one period later (R170). -/
def PortState.elapsed (q : PortState) : PortState :=
  if q.rx.state = .seek then q else { q with rx := { q.rx with silence := q.rx.silence + 1 } }

theorem elapse_eq (d : Device) :
    elapse d = { d with
      intakeA := d.intakeA.elapsed, intakeB := d.intakeB.elapsed
      sel := { d.sel with table := d.sel.table.map (fun e => { e with wait := e.wait - 1 }) }
      net := d.net.elapsed, maint := d.maint.elapsed } := rfl

theorem Intake.elapsed_eq (i : Intake) : i.elapsed = { i with silence := if i.delin = .sync then i.silence + 1 else i.silence } := by
  unfold Intake.elapsed Intake.inSync
  by_cases h : i.delin = .sync <;> simp [h]

theorem PortState.elapsed_eq (q : PortState) :
    q.elapsed = { q with rx := { q.rx with silence := if q.rx.state = .seek then q.rx.silence else q.rx.silence + 1 } } := by
  unfold PortState.elapsed
  split <;> rfl

@[simp] theorem Intake.elapsed_inSync (i : Intake) : i.elapsed.inSync = i.inSync := by unfold Intake.elapsed; split <;> rfl
@[simp] theorem Intake.elapsed_fifo (i : Intake) : i.elapsed.fifo = i.fifo := by unfold Intake.elapsed; split <;> rfl
@[simp] theorem PortState.elapsed_queue (q : PortState) : q.elapsed.queue = q.queue := by unfold PortState.elapsed; split <;> rfl
@[simp] theorem PortState.elapsed_mask (q : PortState) : q.elapsed.mask = q.mask := by unfold PortState.elapsed; split <;> rfl
@[simp] theorem PortState.elapsed_summary (q : PortState) : q.elapsed.summary = q.summary := by unfold PortState.elapsed; split <;> rfl

/-- One period of the counting source leaves the conditions, the masks and the capacities as they were (R49). -/
theorem elapse_upper (x : Site) (d : Device) : Upper x d (elapse d) := by
  have same (i : Intake) : i.fifo.length ≤ Config.intakeFifoSize → i.elapsed.fifo.length ≤ Config.intakeFifoSize := by simp
  have fits (q : PortState) : q.queue.length ≤ Config.inputQueueSize → q.elapsed.queue.length ≤ Config.inputQueueSize := by simp
  have feeds : Upper x d ((d.setIntake .a d.intakeA.elapsed).setIntake .b d.intakeB.elapsed) :=
    Upper.setIntake (Upper.setIntake (Upper.refl x d) .a _ (same d.intakeA) d.intakeA.elapsed_inSync) .b _ (same d.intakeB)
      d.intakeB.elapsed_inSync
  have waits := feeds.setSel (elapse d).sel id (fun h => by simpa [elapse] using h)
  exact Upper.setPort (Upper.setPort waits .network d.net.elapsed (fits d.net) d.net.elapsed_mask d.net.elapsed_summary)
    .maintenance d.maint.elapsed (fits d.maint) d.maint.elapsed_mask d.maint.elapsed_summary

/-! ### Every command -/

theorem execReferencePulse_completes (s : State) : Completes s (execReferencePulse s) := by
  unfold execReferencePulse
  dsimp only
  refine .next ((Keeps.setDev (count_upper (Upper.refl _ _) _ _)).trans (applyEvent_keeps fun hclock => ?_))
  rcases takePulse_ticks s.site.tb (phaseError s.site.tb.ticks) (decide ((phaseError s.site.tb.ticks).natAbs ≤ s.site.tb.lockWindow))
    with h | h
  · rw [h]; decide
  · rw [h]; exact hclock

theorem execMissingPulseCheck_completes (s : State) : Completes s (execMissingPulseCheck s) := by
  unfold execMissingPulseCheck
  dsimp only
  split
  · exact .next (Keeps.refl s)
  · split
    · exact .next (applyEvent_keeps id)
    · refine .next ((Keeps.setDev (count_upper (Upper.refl _ _) _ _)).trans (applyEvent_keeps fun hclock => ?_))
      show (missPulse _).ticks < _
      rw [missPulse_ticks]
      exact hclock

theorem execSecondBoundary_completes (s : State) : Completes s (execSecondBoundary s) := by
  unfold execSecondBoundary
  dsimp only
  split
  · exact .next (Keeps.refl s)
  · refine .next ((Keeps.setDev (elapse_upper _ _)).trans (applyEvent_keeps fun _ => ?_))
    rw [boundary_ticks]
    exact Nat.zero_lt_of_lt (show 0 < Config.ticksPerSecond by decide)

theorem execReferenceLoss_completes (s : State) : Completes s (execReferenceLoss s) := by
  unfold execReferenceLoss
  dsimp only
  split
  · exact .next (Keeps.refl s)
  · refine .next (applyEvent_keeps fun hclock => ?_)
    show (missPulse _).ticks < _
    rw [missPulse_ticks]
    exact hclock

theorem execReferenceReturn_completes (s : State) : Completes s (execReferenceReturn s) := by
  unfold execReferenceReturn
  dsimp only
  split
  · exact .next (Keeps.refl s)
  · exact .next (applyEvent_keeps id)

theorem execMgmtFramingError_completes (p : Port) (s : State) : Completes s (execMgmtFramingError p s) := by
  unfold execMgmtFramingError
  split
  · exact .next (Keeps.refl s)
  · exact .next (.setDev (dropFrame_upper (Upper.refl _ _) p))

theorem execMgmtReceiveSilence_completes (p : Port) (s : State) : Completes s (execMgmtReceiveSilence p s) := by
  unfold execMgmtReceiveSilence
  split
  · exact .next (Keeps.refl s)
  · exact .next (.setDev (dropFrame_upper (Upper.refl _ _) p))

theorem execMgmtFrameSent_completes (p : Port) (s : State) : Completes s (execMgmtFrameSent p s) := by
  unfold execMgmtFrameSent
  split
  · exact .next (Keeps.refl s)
  · exact .next (Keeps.trans (t := s.setDev (s.dev.setPort p { s.dev.port p with tx := (s.dev.port p).tx.sent }))
      (setPort_keeps p _ id rfl rfl) (takeNext_keeps p _))

theorem execUnknownKind_completes (p : Port) (s : State) : Completes s (execUnknownKind p s) := by
  unfold execUnknownKind
  dsimp only
  repeat' split
  · exact .next (Keeps.refl s)
  · exact .next (Keeps.refl s)
  · exact .next ((takeNext_keeps p s).trans (sendReply_keeps p _ _ _ _))

theorem execFeedDelineationByte_completes (f : Feed) (b : Byte) (s : State) : Completes s (execFeedDelineationByte f b s) := by
  unfold execFeedDelineationByte
  split
  · exact .next (Keeps.refl s)
  · exact .next (.setDev (delineate_upper (Upper.refl _ _) f b))

theorem execFeedCellPosition_completes (f : Feed) (bytes : Bytes) (s : State) : Completes s (execFeedCellPosition f bytes s) := by
  unfold execFeedCellPosition
  split
  · exact .next (.setDev (cellPosition_upper (Upper.refl _ _) f bytes))
  · exact .next (Keeps.refl s)

theorem execFeedSilence_completes (f : Feed) (s : State) : Completes s (execFeedSilence f s) := by
  unfold execFeedSilence
  split
  · exact .next (.setDev (leaveSync_upper (Upper.refl _ _) f))
  · exact .next (Keeps.refl s)

theorem execIntakeMarkerAtHead_completes (f : Feed) (s : State) : Completes s (execIntakeMarkerAtHead f s) := by
  unfold execIntakeMarkerAtHead
  split
  · exact .next (.setDev (openFrame_upper (closeAssembly_upper (Upper.refl _ _) f) f _))
  · exact .next (Keeps.refl s)

theorem execIntakeCellAtHead_completes (f : Feed) (s : State) : Completes s (execIntakeCellAtHead f s) := by
  unfold execIntakeCellAtHead
  repeat' split
  · exact .next (Keeps.refl s)
  · exact .next (.setDev (headCell_upper (Upper.refl _ _) f _))
  · exact .next (Keeps.refl s)

/-- The arbiter's decision after anything that keeps the laws. -/
theorem endBurst_upper {x : Site} {d0 d : Device} (h : Upper x d0 d) : Upper x d0 (endBurst x d) := h.then (endBurst_lower (Lower.refl x d))

theorem execIntakeBurstComplete_completes (f : Feed) (s : State) : Completes s (execIntakeBurstComplete f s) := by
  unfold execIntakeBurstComplete
  dsimp only
  repeat' split
  · exact .next (Keeps.refl s)
  · exact .next (.setDev (checkComplete_upper (endBurst_upper (intakeWrite_upper (store_upper (Upper.refl _ _) _) f _)) f))
  · exact .next (.setDev (endBurst_upper (store_upper (Upper.refl _ _) _)))
  · exact .next (Keeps.refl s)

theorem execPairingWaitEnd_completes (n : FrameNo) (s : State) : Completes s (execPairingWaitEnd n s) := by
  unfold execPairingWaitEnd
  repeat' split
  · exact .next (Keeps.refl s)
  · exact .next (.setDev (endWait_upper (Upper.refl _ _) _))
  · exact .next (Keeps.refl s)

theorem execDueInstant_completes (s : State) : Completes s (execDueInstant s) :=
  .next (.setDev (serveItems_lower (Lower.refl _ _)).upper)

theorem execCreditReturn_completes (s : State) : Completes s (execCreditReturn s) := by
  unfold execCreditReturn
  dsimp only
  have dropped := fun late => dropWaiting_lower (Lower.refl s.site s.dev) late
  repeat' split
  · exact .next (.setDev (count_lower (dropped _) _ _).upper)
  · exact .next (.setDev (beginSending_lower ((dropped _).setEm _) _).upper)
  · exact .next (.setDev ((dropped _).setEm _).upper)

theorem execCreditWaitExpiry_completes (s : State) : Completes s (execCreditWaitExpiry s) :=
  .next (.setDev (dropWaiting_lower (Lower.refl _ _) _).upper)

theorem execGapCandidateInstant_completes (s : State) : Completes s (execGapCandidateInstant s) := by
  unfold execGapCandidateInstant
  dsimp only
  repeat' split
  · exact .next (Keeps.refl s)
  · exact .next (Keeps.refl s)
  · exact .next (.setDev (serveItems_lower (count_lower (((Lower.refl _ _).setEm _).setEm _) _ _)).upper)
  · exact .next (.setDev ((Lower.refl _ _).setEm _).upper)

theorem execEmitBurstComplete_completes (s : State) : Completes s (execEmitBurstComplete s) := by
  unfold execEmitBurstComplete
  dsimp only
  have ended := endBurst_lower (Lower.refl s.site s.dev)
  split
  · refine .next (.setDev (Lower.upper ?_))
    split
    · exact deliverCell_lower ended _ _ _
    · exact askEmit_lower ended
  · exact .next (Keeps.refl s)

theorem execOutputCellSent_completes (s : State) : Completes s (execOutputCellSent s) := by
  unfold execOutputCellSent
  dsimp only
  have released := fun e => releaseHeld_lower ((Lower.refl s.site s.dev).setEm e)
  split
  · exact .next (Keeps.refl s)
  · refine .next (.setDev (Lower.upper ?_))
    split
    · exact endSending_lower (released _)
    · exact askEmit_lower (released _)

theorem execSpliceBurstComplete_completes (s : State) : Completes s (execSpliceBurstComplete s) := by
  unfold execSpliceBurstComplete
  dsimp only
  split
  · refine .next (.setDev (afterSplice_lower (endBurst_lower ?_) _).upper)
    split
    · exact spliceWrite_lower (Lower.refl _ _) _ _ _ _
    · exact (Lower.refl _ _).store _
  · exact .next (Keeps.refl s)

theorem execLoadBurstComplete_completes (s : State) : Completes s (execLoadBurstComplete s) := by
  unfold execLoadBurstComplete
  dsimp only
  split
  · refine .next (.setDev (askLoad_upper (endBurst_upper ?_)))
    split
    · exact loadCellDone_upper (store_upper (Upper.refl _ _) _)
    · exact dropDeadEntry_upper (store_upper (Upper.refl _ _) _)
  · exact .next (Keeps.refl s)

/-- Every programme of the reset state is empty. -/
theorem reset_prog (p : ProgNo) : State.reset.dev.splice.progs[p] = Programme.reset := Vector.getElem_replicate _

/-- Settles O8, law by law at the reset values. -/
theorem lawsHoldAtReset : Obligations.LawsHoldAtReset := by
  refine ⟨nofun, rfl, by decide, by decide, by decide, by decide, by decide, by decide, fun p => ?_, ⟨?_, ?_⟩, by decide⟩
  · rw [reset_prog]
    decide
  · exact (congrArg (· != 0#16) (BitVec.and_zero (x := conditionWord State.reset.site State.reset.dev))).symm
  · exact (congrArg (· != 0#16) (BitVec.and_zero (x := conditionWord State.reset.site State.reset.dev))).symm

/-- The reset line gives a state within every law (R83, R173). -/
theorem reset_keeps (s : State) : Keeps s { State.reset with pending := s.pending } := by
  obtain ⟨lockout, mem, clock, ⟨decided, table⟩, ⟨fifoA, fifoB⟩, ⟨net, maint⟩, asrun, load, cues, summary, maskNet, maskMaint⟩ :=
    lawsHoldAtReset
  exact ⟨⟨fun _ => lockout, fun _ => clock, ⟨fun _ => mem, fun _ => decided, fun _ => table, fun _ => fifoA, fun _ => fifoB, fun _ => load, fun _ => net, fun _ => maint,
      fun _ => asrun, fun _ => maskNet, fun _ => maskMaint, fun _ => cues⟩, fun _ => summary⟩, rfl⟩

/-- Every command completes in every state and keeps what the laws say of it. -/
theorem exec_completes (c : Instr) (s : State) : Completes s (exec c s) := by
  have readOnly (k : Kind) (p : Port) {owner : Request → State → Answer} (h : ∀ r s, (owner r s).state = s) :
      Completes s (serve k p owner s) := serve_completes k p (fun r s => by rw [h]; exact Keeps.refl s) s
  cases c with
  | resetLine => exact .next (reset_keeps s)
  | mgmtFrameReceived p bytes => exact .next (receiveBytes_keeps p bytes s)
  | mgmtFramingError p => exact execMgmtFramingError_completes p s
  | mgmtReceiveSilence p => exact execMgmtReceiveSilence_completes p s
  | mgmtFrameSent p => exact execMgmtFrameSent_completes p s
  | unknownKind p => exact execUnknownKind_completes p s
  | readStatus p => exact readOnly _ p fun _ _ => rfl
  | readIdentity p => exact readOnly _ p fun _ _ => rfl
  | setMask p => exact serve_completes _ p (ownSetMask_keeps p) s
  | clearConditions p => exact serve_completes _ p ownClearConditions_keeps s
  | takeLocal p => exact serve_completes _ p ownTakeLocal_keeps s
  | returnRemote p => exact serve_completes _ p (fun _ s => moveControl_keeps false (s := s) fun _ => rfl) s
  | claimRemote p => exact serve_completes _ p (fun _ s => moveControl_keeps (s.control == .local_) (s := s) fun _ => rfl) s
  | setLockout p => exact serve_completes _ p ownSetLockout_keeps s
  | release p => exact serve_completes _ p ownRelease_keeps s
  | siteRestart p => exact serve_completes _ p ownSiteRestart_keeps s
  | queryList p => exact readOnly _ p fun _ _ => rfl
  | setWindow p => exact serve_completes _ p ownSetWindow_keeps s
  | setDefaultAction p => exact serve_completes _ p ownSetDefaultAction_keeps s
  | setSelector p => exact serve_completes _ p ownSetSelector_keeps s
  | setTimebase p => exact serve_completes _ p ownSetTimebase_keeps s
  | setTime p => exact serve_completes _ p ownSetTime_keeps s
  | setSite p => exact serve_completes _ p ownSetSite_keeps s
  | setOutputMode p => exact serve_completes _ p ownSetOutputMode_keeps s
  | setArbiter p => exact serve_completes _ p ownSetArbiter_keeps s
  | clipOpen p => exact serve_completes _ p ownClipOpen_keeps s
  | clipData p => exact serve_completes _ p ownClipData_keeps s
  | clipAbort p => exact serve_completes _ p ownClipAbort_keeps s
  | clipDelete p => exact serve_completes _ p ownClipDelete_keeps s
  | clipInfo p => exact serve_completes _ p ownClipInfo_keeps s
  | catalogueRead p => exact serve_completes _ p ownCatalogueRead_keeps s
  | setSlot p => exact serve_completes _ p ownSetSlot_keeps s
  | listInsert p => exact serve_completes _ p ownListInsert_keeps s
  | listRemove p => exact serve_completes _ p ownListRemove_keeps s
  | listRead p => exact serve_completes _ p ownListRead_keeps s
  | setProgramme p => exact serve_completes _ p ownSetProgramme_keeps s
  | cueAnswer p => exact serve_completes _ p ownCueAnswer_keeps s
  | programmeReset p => exact serve_completes _ p ownProgrammeReset_keeps s
  | asRunFetch p => exact serve_completes _ p ownAsRunFetch_keeps s
  | setCounter p => exact serve_completes _ p ownSetCounter_keeps s
  | snapshotCounters p => exact readOnly _ p fun _ _ => rfl
  | clearCounters p => exact serve_completes _ p ownClearCounters_keeps s
  | feedDelineationByte f b => exact execFeedDelineationByte_completes f b s
  | feedCellPosition f bytes => exact execFeedCellPosition_completes f bytes s
  | feedSilence f => exact execFeedSilence_completes f s
  | intakeMarkerAtHead f => exact execIntakeMarkerAtHead_completes f s
  | intakeCellAtHead f => exact execIntakeCellAtHead_completes f s
  | intakeBurstComplete f => exact execIntakeBurstComplete_completes f s
  | pairingWaitEnd n => exact execPairingWaitEnd_completes n s
  | referencePulse => exact execReferencePulse_completes s
  | missingPulseCheck => exact execMissingPulseCheck_completes s
  | secondBoundary => exact execSecondBoundary_completes s
  | referenceLoss => exact execReferenceLoss_completes s
  | referenceReturn => exact execReferenceReturn_completes s
  | dueInstant => exact execDueInstant_completes s
  | creditReturn => exact execCreditReturn_completes s
  | creditWaitExpiry => exact execCreditWaitExpiry_completes s
  | gapCandidateInstant => exact execGapCandidateInstant_completes s
  | emitBurstComplete => exact execEmitBurstComplete_completes s
  | outputCellSent => exact execOutputCellSent_completes s
  | spliceBurstComplete => exact execSpliceBurstComplete_completes s
  | loadBurstComplete => exact execLoadBurstComplete_completes s
  | bodyLengthOverLimit p bytes => exact .next (receiveBytes_keeps p bytes s)

/-! ### The laws of a step -/

/-- A step with nothing waiting keeps the laws: an event is queued, or a tick passes. -/
theorem idle_keeps (s : State) : KeepsLaws s (idle s) := by
  unfold idle
  split
  · exact ⟨id, id, Held.refl _, id⟩
  · split
    · exact ⟨id, id, Held.refl _, id⟩
    · next hlast =>
      have elapsed := elapse_upper s.site s.dev
      refine ⟨id, fun h => ?_, elapsed.toHeld, elapsed.summary⟩
      have h : s.site.tb.ticks < Config.ticksPerSecond := h
      show s.site.tb.ticks + 1 < _
      omega

/-- Every step keeps the laws. -/
theorem step_keeps {s t : State} (h : step s = .next t) : KeepsLaws s t := by
  unfold step at h
  split at h
  · obtain rfl := Host.Outcome.next.inj h
    exact idle_keeps s
  · next c rest _ =>
    obtain ⟨u, hu, k⟩ := exec_completes c { s with pending := rest }
    obtain rfl := Host.Outcome.next.inj (hu.symm.trans h)
    exact ⟨k.lockout, k.clock, k.held, k.summary⟩

/-- Settles O1: the case of `step` with a command waiting. -/
theorem stepRunsFrontCommand : Obligations.StepRunsFrontCommand := fun _ _ _ => rfl

/-- Settles O2, by the cases of the dispatch. -/
theorem everyCommandCompletes : Obligations.EveryCommandCompletes := fun c s =>
  let ⟨t, ht, k⟩ := exec_completes c s
  ⟨t, ht, k.pending⟩

/-- Settles O3: a step of an empty queue with nothing due is `tick`, which changes the ticks and what one period elapses. -/
theorem idleStepIsOneTick : Obligations.IdleStepIsOneTick := by
  intro s hempty hnone hlast
  have hidle : idle s = tick s := by
    unfold idle
    rw [hnone]
    exact if_neg hlast
  have hstep : step s = .next (tick s) := by
    unfold step
    rw [hempty, hidle]
  have feed (f : Feed) : (tick s).dev.intake f = (s.dev.intake f).elapsed := by cases f <;> rfl
  have line (p : Port) : (tick s).dev.port p = (s.dev.port p).elapsed := by cases p <;> rfl
  refine ⟨tick s, hstep, hempty, rfl, rfl, rfl, beq_iff_eq, rfl, rfl, fun f => ?_, fun p => ?_, rfl⟩
  · rw [feed, Intake.elapsed_eq]
  · rw [line, PortState.elapsed_eq]

theorem reset_slot (i : SlotNo) : State.reset.dev.slots[i] = Record.empty := Vector.getElem_replicate _
theorem reset_place (i : PlaceNo) : State.reset.dev.cat.places[i] = none := Vector.getElem_replicate _

/-- The free list after the reset line: every block in order (R95). -/
theorem reset_freeList : State.reset.dev.cat.freeList.map (·.val) = List.range 1024 := by
  simp only [State.reset, Device.reset, Catalogue.reset, List.map_coe_finRange_eq_range]

/-- Settles O9: the row answers the reset state with the queue as it was, and the values are those of that state. -/
theorem resetLineSetsEverything : Obligations.ResetLineSetsEverything := fun s =>
  ⟨{ State.reset with pending := s.pending }, rfl, rfl, rfl, rfl, rfl, rfl, rfl, rfl, rfl, reset_slot, reset_freeList, reset_place,
    rfl, rfl, rfl, rfl, rfl, rfl, rfl, rfl, rfl, rfl, rfl, rfl, rfl⟩

/-- Settles O4: each command that moves control or lockout leaves the network port in control while lockout is on. -/
theorem lockoutLawKept : Obligations.LockoutLawKept := fun _ _ law h => (step_keeps h).lockout law

/-- Settles O5: site memory changes by runs of writes alone. -/
theorem memoryLawKept : Obligations.MemoryLawKept := fun _ _ law h => (step_keeps h).held.mem law

/-- Settles O6: each collection grows only where it has room. -/
theorem capacityLawsKept : Obligations.CapacityLawsKept := by
  intro s t h
  have kept := step_keeps h
  have held := kept.held
  exact ⟨kept.clock, fun ⟨decided, table⟩ => ⟨held.decided decided, held.table table⟩, fun ⟨a, b⟩ => ⟨held.fifoA a, held.fifoB b⟩,
    fun ⟨net, maint⟩ => ⟨held.queueNet net, held.queueMaint maint⟩, held.asrun, held.load, held.cues⟩

/-- Settles O7: every change of a condition is followed by the summaries, and SetMask clears the bits that name no condition. -/
theorem summaryLawKept : Obligations.SummaryLawKept := by
  intro s t h
  have kept := step_keeps h
  exact ⟨kept.summary, fun ⟨net, maint⟩ => ⟨kept.held.maskNet net, kept.held.maskMaint maint⟩⟩

end Sys2Proof.Machine
end

section
/-! PROOFS. Formats: a formed header read back (R1 to R3), and a run of bytes written to site memory read back (section 6.1). -/

namespace Sys2Proof.Machine

/-! ### Headers -/

theorem qualifierOf_code (q : Qualifier) : qualifierOf (qualifierCode q) = q := by cases q <;> rfl

/-- The second header byte: four bits of the SID, the qualifier, the discontinuity flag and a zero bit (section 1.2). -/
def flagsByte (sidLow : BitVec 4) (qual : BitVec 2) (disc : Bool) : Byte := sidLow ++ qual ++ BitVec.ofBool disc ++ 0#1

theorem flagsByte_sid : ∀ a q d, (flagsByte a q d).extractLsb' 4 4 = a := by decide
theorem flagsByte_qual : ∀ a q d, (flagsByte a q d).extractLsb' 2 2 = q := by decide
theorem flagsByte_disc : ∀ a q d, (flagsByte a q d).getLsbD 1 = d := by decide
theorem cont_nibble : ∀ x : BitVec 4, (x ++ 0#4 : BitVec 8).extractLsb' 4 4 = x := by decide

theorem sid_halves (x : Sid) : (x.extractLsb' 4 8 ++ x.extractLsb' 0 4 : BitVec 12) = x := by
  ext i hi
  simp
  grind

theorem index_halves (x : BitVec 16) : (x.extractLsb' 8 8 ++ x.extractLsb' 0 8 : BitVec 16) = x := by
  ext i hi
  simp
  grind

theorem formHeader_eq (h : Header) :
    formHeader h = [Config.syncByte, h.sid.extractLsb' 4 8, flagsByte (h.sid.extractLsb' 0 4) (qualifierCode h.qual) h.disc, h.cont ++ 0#4, h.aux, h.index.extractLsb' 8 8,
      h.index.extractLsb' 0 8, headerCheck (headerFields h)] := rfl

/-- The bytes the header check covers, and the check behind them (section 1.2). -/
theorem formHeader_covered (h : Header) (pl : Bytes) : ((formHeader h ++ pl).drop 1).take 6 = headerFields h := rfl

theorem formHeader_check (h : Header) (pl : Bytes) : byteAt (formHeader h ++ pl) 7 = headerCheck (headerFields h) := by
  rw [formHeader_eq]
  generalize headerCheck (headerFields h) = check
  rfl

/-- The header the device forms reads back as its fields (R1, R3). -/
@[simp] theorem parseHeader_formHeader (h : Header) (pl : Bytes) : parseHeader (formHeader h ++ pl) = h := by
  have fields : parseHeader (formHeader h ++ pl) =
      let flags := flagsByte (h.sid.extractLsb' 0 4) (qualifierCode h.qual) h.disc
      ⟨h.sid.extractLsb' 4 8 ++ flags.extractLsb' 4 4, qualifierOf (flags.extractLsb' 2 2), flags.getLsbD 1,
        (h.cont ++ 0#4 : BitVec 8).extractLsb' 4 4, h.aux, h.index.extractLsb' 8 8 ++ h.index.extractLsb' 0 8⟩ := rfl
  dsimp only at fields
  rw [fields, flagsByte_sid, flagsByte_qual, flagsByte_disc, qualifierOf_code, sid_halves, index_halves, cont_nibble]

@[simp] theorem payloadOf_formHeader (h : Header) (pl : Bytes) : payloadOf (formHeader h ++ pl) = pl := by
  rw [formHeader_eq]
  rfl

/-- A formed header is valid when its SID and qualifier go together, and its SID and index (R2). -/
theorem headerValid_formHeader {h : Header} (hqual : h.sid = 4095#12 ↔ h.qual = .marker)
    (hindex : h.sid = 4095#12 ∨ (1 ≤ h.index.toNat ∧ h.index.toNat ≤ 256)) (pl : Bytes) :
    headerValid (formHeader h ++ pl) = true := by
  have hcheck : (headerCheck (((formHeader h ++ pl).drop 1).take 6) == byteAt (formHeader h ++ pl) 7) = true := by
    rw [formHeader_check, formHeader_covered, beq_self_eq_true]
  have hpair : ((h.sid == Config.markerSid) == (h.qual == .marker)) = true := by
    rw [beq_iff_eq, Bool.eq_iff_iff, beq_iff_eq, beq_iff_eq]
    exact hqual
  have hplace : (h.sid == Config.markerSid || (1 ≤ h.index.toNat && h.index.toNat ≤ Config.cellsPerSlot : Bool)) = true := by
    rw [Bool.or_eq_true, Bool.and_eq_true, beq_iff_eq, decide_eq_true_iff, decide_eq_true_iff]
    exact hindex
  rw [headerValid, parseHeader_formHeader, hcheck, hpair, hplace]
  rfl

/-- Settles O10: the fields of a formed header stand where `parseHeader` reads them, and its check is computed over them. -/
theorem formedHeaderReadsBack : Obligations.FormedHeaderReadsBack := fun h pl =>
  ⟨parseHeader_formHeader h pl, payloadOf_formHeader h pl, fun hqual hindex => headerValid_formHeader hqual hindex pl⟩

/-! ### Site memory -/

/-- A run of writes reads back byte for byte (section 6.1). -/
theorem memRead_memWriteRun_inside (bs : Bytes) (m : SiteMemory) (k a : Nat) (hwf : memWf m = true) (hlo : k ≤ a)
    (hhi : a < k + bs.length) : memRead (memWriteRun m k bs) a = bs.getD (a - k) 0 := by
  induction bs generalizing m k with
  | nil => simp at hhi; omega
  | cons v vs ih =>
    have htail := memWf_memWrite k v m hwf
    rw [List.length_cons] at hhi
    rcases Nat.eq_or_lt_of_le hlo with rfl | hlt
    · rw [memWriteRun, memRead_memWriteRun_below vs _ _ _ htail (Nat.lt_succ_self k), memRead_memWrite k v k m hwf]
      simp
    · obtain ⟨j, rfl⟩ := Nat.exists_eq_add_of_lt hlt
      rw [memWriteRun, ih _ _ htail (by omega) (by omega)]
      have : k + j + 1 - k = (k + j + 1 - (k + 1)) + 1 := by omega
      rw [this, List.getD_cons_succ]

/-- Settles O11, by the three places an address can have: below the run, inside it, past it. -/
theorem writtenRunReadsBack : Obligations.WrittenRunReadsBack := by
  intro m k bs a hwf
  refine ⟨memWf_memWriteRun bs m k hwf, ?_⟩
  split
  · next h => exact memRead_memWriteRun_inside bs m k a hwf h.1 h.2
  · next h =>
    rcases Nat.lt_or_ge a k with hlo | hlo
    · exact memRead_memWriteRun_below bs m k a hwf hlo
    · exact memRead_memWriteRun_above bs m k a hwf (by omega)

end Sys2Proof.Machine
end

section
/-! PROOFS. The management lines (R9, R170 to R172, R180): a frame received byte by byte, what becomes of a whole and of a broken one, the
transmitter's next frame, and the checks of a request. -/

namespace Sys2Proof.Machine

/-! ### Bytes on a line -/

/-- The state with one port's receiver replaced. -/
def State.setRx (s : State) (p : Port) (r : Receiver) : State := s.setDev (s.dev.setRx p r)

@[simp] theorem State.setRx_site (s : State) (p : Port) (r : Receiver) : (s.setRx p r).site = s.site := rfl
@[simp] theorem State.setRx_dev (s : State) (p : Port) (r : Receiver) : (s.setRx p r).dev = s.dev.setRx p r := rfl
@[simp] theorem State.setRx_setDev (s : State) (p : Port) (r : Receiver) (d : Device) : (s.setRx p r).setDev d = s.setDev d := rfl
@[simp] theorem Device.setRx_port (d : Device) (p : Port) (r : Receiver) : (d.setRx p r).port p = { d.port p with rx := r } := by
  simp [Device.setRx]
@[simp] theorem Device.setRx_setRx (d : Device) (p : Port) (r r' : Receiver) : (d.setRx p r).setRx p r' = d.setRx p r' := by
  cases p <;> rfl

/-- A receiver replaced leaves a port with nothing to take as it was. -/
theorem takeNext_setRx {p : Port} {s : State} (h : NothingToTake p s) (r : Receiver) : takeNext p (s.setRx p r) = s.setRx p r := by
  refine takeNext_nothing ?_
  unfold NothingToTake
  rw [State.setRx_dev, Device.setRx_port]
  exact h

section Line

variable {p : Port} {s : State} (hidle : NothingToTake p s)

include hidle

/-- A byte that only moves the receiver on. -/
theorem receiveByte_setRx {r r' : Receiver} {b : Byte} (hstep : rxByte s.site p (s.dev.setRx p r) b = s.dev.setRx p r') :
    receiveByte p (s.setRx p r) b = s.setRx p r' := by
  rw [receiveByte, State.setRx_site, State.setRx_dev, hstep, State.setRx_setDev]
  exact takeNext_setRx hidle r'

theorem receiveByte_start (hseek : (s.dev.port p).rx.state = .seek) : receiveByte p s 0xA5 = s.setRx p ⟨.length, [], 0⟩ := by
  have hstep : rxByte s.site p s.dev 0xA5 = s.dev.setRx p ⟨.length, [], 0⟩ := by
    simp [rxByte, hseek, Config.startByte]
  rw [receiveByte, hstep]
  exact takeNext_setRx hidle _

theorem receiveByte_length_first (hi : Byte) : receiveByte p (s.setRx p ⟨.length, [], 0⟩) hi = s.setRx p ⟨.length, [hi], 0⟩ := by
  refine receiveByte_setRx hidle ?_
  simp [rxByte]

theorem receiveByte_length_second {hi lo : Byte} (hlen : frameLength [hi, lo] ≤ 1024) :
    receiveByte p (s.setRx p ⟨.length, [hi], 0⟩) lo = s.setRx p ⟨.header, [hi, lo], 0⟩ := by
  refine receiveByte_setRx hidle ?_
  have : ¬ Config.maxBody < frameLength [hi, lo] := Nat.not_lt.mpr hlen
  simp [rxByte, this]

theorem receiveByte_kind (hi lo kind : Byte) :
    receiveByte p (s.setRx p ⟨.header, [hi, lo], 0⟩) kind = s.setRx p ⟨.header, [hi, lo, kind], 0⟩ := by
  refine receiveByte_setRx hidle ?_
  simp [rxByte]

/-- The state of a receiver once the header of a frame with a body of `n` bytes is whole. -/
def afterHeader (n : Nat) : RxState := if n = 0 then .check else .body

theorem receiveByte_tag (hi lo kind tag : Byte) :
    receiveByte p (s.setRx p ⟨.header, [hi, lo, kind], 0⟩) tag
      = s.setRx p ⟨afterHeader (frameLength [hi, lo]), [hi, lo, kind, tag], 0⟩ := by
  refine receiveByte_setRx hidle ?_
  have hlen : frameLength [hi, lo, kind, tag] = frameLength [hi, lo] := rfl
  simp only [rxByte, Device.setRx_port, Device.setRx_setRx, List.cons_append, List.nil_append, List.length_cons, List.length_nil, hlen,
    afterHeader, Nat.lt_irrefl, if_false]
  split <;> simp

/-- The bytes of the body: the receiver gathers them and is ready for the check bytes behind the last. -/
theorem foldl_receiveByte_body (hi lo : Byte) (rest : Bytes) : ∀ acc : Bytes, 2 ≤ acc.length →
    acc.length + rest.length = 2 + frameLength [hi, lo] →
    rest.foldl (receiveByte p) (s.setRx p ⟨afterHeader rest.length, hi :: lo :: acc, 0⟩)
      = s.setRx p ⟨.check, hi :: lo :: (acc ++ rest), 0⟩ := by
  induction rest with
  | nil => intro acc _ _; simp [afterHeader]
  | cons b rest ih =>
    intro acc hacc hlen
    have hmove : receiveByte p (s.setRx p ⟨.body, hi :: lo :: acc, 0⟩) b
        = s.setRx p ⟨afterHeader rest.length, hi :: lo :: (acc ++ [b]), 0⟩ := by
      refine receiveByte_setRx hidle ?_
      have hframe : frameLength (hi :: lo :: (acc ++ [b])) = frameLength [hi, lo] := rfl
      have hmore : (acc.length + 1 + 1 + 1 < 4 + frameLength [hi, lo]) ↔ rest.length ≠ 0 := by
        simp only [List.length_cons] at hlen
        omega
      simp only [rxByte, Device.setRx_port, Device.setRx_setRx, List.cons_append, List.length_cons, List.length_append, List.length_nil,
        hframe, afterHeader, Nat.zero_add, hmore]
      split <;> simp_all
    have hstate : afterHeader (b :: rest).length = .body := by simp [afterHeader]
    rw [List.foldl_cons, hstate, hmove, ih (acc ++ [b]) (by simp; omega) (by simp at hlen ⊢; omega)]
    simp

theorem receiveByte_check_first {hi lo : Byte} {acc : Bytes} (hlen : acc.length = 2 + frameLength [hi, lo]) (c : Byte) :
    receiveByte p (s.setRx p ⟨.check, hi :: lo :: acc, 0⟩) c = s.setRx p ⟨.check, hi :: lo :: (acc ++ [c]), 0⟩ := by
  refine receiveByte_setRx hidle ?_
  have hframe : frameLength (hi :: lo :: (acc ++ [c])) = frameLength [hi, lo] := rfl
  have hmore : acc.length + 1 + 1 + 1 < 6 + frameLength [hi, lo] := by omega
  simp [rxByte, hframe, hmore]

omit hidle in
theorem judgeFrame_setRx (x : Site) (p : Port) (bytes : Bytes) (d : Device) (r : Receiver) :
    judgeFrame x p bytes (d.setRx p r) = judgeFrame x p bytes d := by
  simp only [judgeFrame, dropFrame, Device.setRx_setRx]

omit hidle in
theorem receiveByte_check_last {hi lo : Byte} {acc : Bytes} (hlen : acc.length = 3 + frameLength [hi, lo]) (c : Byte) :
    receiveByte p (s.setRx p ⟨.check, hi :: lo :: acc, 0⟩) c
      = takeNext p (s.setDev (judgeFrame s.site p (hi :: lo :: (acc ++ [c])) s.dev)) := by
  have hframe : frameLength (hi :: lo :: (acc ++ [c])) = frameLength [hi, lo] := rfl
  have hmore : ¬ acc.length + 1 + 1 + 1 < 6 + frameLength [hi, lo] := by omega
  have hstep : rxByte s.site p (s.dev.setRx p ⟨.check, hi :: lo :: acc, 0⟩) c
      = judgeFrame s.site p (hi :: lo :: (acc ++ [c])) s.dev := by
    simp [rxByte, hframe, hmore, judgeFrame_setRx]
  rw [receiveByte, State.setRx_site, State.setRx_dev, hstep, State.setRx_setDev]

/-- The bytes of a whole frame received on an idle line (R9, R170): the frame is judged, and a request is taken where one can be. -/
theorem foldl_receiveByte_frame (hseek : (s.dev.port p).rx.state = .seek) {hi lo : Byte} {body : Bytes}
    (hlen : frameLength [hi, lo] = body.length) (hmax : body.length ≤ 1024) (kind tag c₁ c₂ : Byte) :
    (0xA5 :: hi :: lo :: kind :: tag :: (body ++ [c₁, c₂])).foldl (receiveByte p) s
      = takeNext p (s.setDev (judgeFrame s.site p (hi :: lo :: kind :: tag :: (body ++ [c₁, c₂])) s.dev)) := by
  simp only [List.foldl_cons, List.foldl_append, List.foldl_nil]
  rw [receiveByte_start hidle hseek, receiveByte_length_first hidle, receiveByte_length_second hidle (hlen ▸ hmax),
    receiveByte_kind hidle, receiveByte_tag hidle, hlen,
    foldl_receiveByte_body hidle hi lo body [kind, tag] (Nat.le_refl 2) (by simp [hlen]),
    receiveByte_check_first hidle (by simp [hlen]; omega), receiveByte_check_last (by simp [hlen]; omega)]
  simp

end Line

/-! ### Whole frames judged (R9, R170, R171) -/

/-- The length bytes of a body of at most 1,024 bytes. -/
theorem frameLength_halves {n : Nat} (h : n ≤ 1024) : frameLength [BitVec.ofNat 8 (n / 256), BitVec.ofNat 8 n] = n := by
  have := beNat_beBytes 2 n
  simp only [beBytes, Nat.pow_one, Nat.pow_zero, Nat.div_one] at this
  rw [frameLength, fieldAt]
  simp only [List.drop_zero, List.take_succ_cons, List.take_zero]
  rw [this]
  omega

/-- The judgement of a frame whose check bytes hold `check` (R9). -/
theorem judgeFrame_check (x : Site) (p : Port) {hi lo : Byte} {body : Bytes} (hlen : frameLength [hi, lo] = body.length) (kind tag : Byte)
    (check : BitVec 16) (d : Device) :
    judgeFrame x p (hi :: lo :: kind :: tag :: (body ++ beBytes 2 check.toNat)) d
      = if linkCheck (hi :: lo :: kind :: tag :: body) = check ∧ kind.getLsbD 7 = false then
          offerRequest x p ⟨kind, tag, body⟩ (d.setRx p rxSeek)
        else dropFrame x p d := by
  have hframe : frameLength (hi :: lo :: kind :: tag :: (body ++ beBytes 2 check.toNat)) = body.length := hlen
  have hcovered : (hi :: lo :: kind :: tag :: (body ++ beBytes 2 check.toNat)).take (4 + body.length) = hi :: lo :: kind :: tag :: body := by
    rw [Nat.add_comm]
    simp
  have hfield : fieldAt (hi :: lo :: kind :: tag :: (body ++ beBytes 2 check.toNat)) (4 + body.length) 2 = check.toNat := by
    have := fieldAt_append_beBytes (hi :: lo :: kind :: tag :: body) 2 check.toNat
    have hlt := check.isLt
    rw [show (hi :: lo :: kind :: tag :: body).length = 4 + body.length by simp; omega] at this
    rw [show hi :: lo :: kind :: tag :: (body ++ beBytes 2 check.toNat) = hi :: lo :: kind :: tag :: body ++ beBytes 2 check.toNat by simp,
      this]
    omega
  simp only [judgeFrame, hframe, hcovered, hfield, BitVec.ofNat_toNat, BitVec.setWidth_eq]
  simp [byteAt]

/-! ### A port with nothing to take stays so (R171, R180) -/

/-- An Attention given to a transmitter is no reply. -/
theorem holdsReply_putAttention (t : Transmitter) {f : TxFrame} (hf : f.attention = true) : (t.putAttention f).holdsReply = t.holdsReply := by
  obtain ⟨sending, waiting⟩ := t
  cases sending with
  | none => simp [Transmitter.putAttention, Transmitter.holdsReply, hf]
  | some g =>
    have hmap : (waiting.map fun w => if w.attention then f else w).any (fun w => !w.attention) = waiting.any (fun w => !w.attention) := by
      rw [List.any_map]
      congr 1
      funext w
      by_cases hw : w.attention = true <;> simp [hw, hf]
    simp only [Transmitter.putAttention, Transmitter.holdsReply]
    split
    · simp [hmap]
    · simp [hf]

@[simp] theorem refreshPort_holdsReply (word : BitVec 16) (q : PortState) : (refreshPort word q).tx.holdsReply = q.tx.holdsReply := by
  unfold refreshPort
  dsimp only
  split
  · exact holdsReply_putAttention q.tx rfl
  · rfl

/-- A counted event leaves a port as it was, or recomputes its summary. -/
theorem port_bump_cases (x : Site) (hit : Counter → Nat) (d : Device) (p : Port) :
    (bump x hit d).port p = d.port p ∨ ∃ word, (bump x hit d).port p = refreshPort word (d.port p) := by
  by_cases h : SomeWraps hit d.counters
  · rw [bump_of_wrap h, latch, port_refresh]
    cases p <;> exact .inr ⟨_, rfl⟩
  · refine .inl ?_
    rw [bump_of_no_wrap h]
    cases p <;> rfl

theorem nothingToTake_count {p : Port} {s : State} (h : NothingToTake p s) (x : Site) (cls : CountClass) (sub : Nat) :
    NothingToTake p (s.setDev (count x cls sub s.dev)) := by
  unfold NothingToTake
  rw [State.setDev_dev, count_eq_bump]
  rcases port_bump_cases x (eventHit cls sub) s.dev p with hp | ⟨word, hp⟩
  · rw [hp]
    exact h
  · rw [hp, refreshPort_service, refreshPort_queue, refreshPort_holdsReply]
    exact h

/-- The port of a discarded frame takes no request. -/
theorem takeNext_dropFrame {p : Port} {s : State} (h : NothingToTake p s) (x : Site) :
    takeNext p (s.setDev (dropFrame x p s.dev)) = s.setDev (dropFrame x p s.dev) := by
  have hidle : NothingToTake p (s.setRx p rxSeek) := by
    unfold NothingToTake
    rw [State.setRx_dev, Device.setRx_port]
    exact h
  exact takeNext_nothing (nothingToTake_count hidle x .link _)

/-! ### A request taken (R171, R172) -/

/-- The device with the oldest request of a port taken into service. -/
theorem takeNext_of_queue {p : Port} {s : State} {r : Request} {rest : List Request} (hservice : (s.dev.port p).service = none)
    (hqueue : (s.dev.port p).queue = r :: rest) (hreply : (s.dev.port p).tx.holdsReply = false) :
    takeNext p s = s.setDev (s.dev.setPort p
      { s.dev.port p with queue := rest, service := some ⟨r, takingRefusal s.site.phase s.control p r⟩ }) := by
  simp [takeNext, hservice, hqueue, hreply]

theorem requestFrame_eq (kind tag : Byte) (body : Bytes) :
    requestFrame kind tag body = 0xA5 :: BitVec.ofNat 8 (body.length / 256) :: BitVec.ofNat 8 body.length :: kind :: tag ::
      (body ++ beBytes 2 (linkCheck (BitVec.ofNat 8 (body.length / 256) :: BitVec.ofNat 8 body.length :: kind :: tag :: body)).toNat) := by
  simp [requestFrame, beBytes, Config.startByte]

/-- A frame of at most 1,024 body bytes received on an idle line with nothing to take: its check bytes decide what becomes of it (R9). -/
theorem foldl_receiveByte_checked {p : Port} {s : State} (hidle : NothingToTake p s) (hseek : (s.dev.port p).rx.state = .seek)
    {body : Bytes} (hmax : body.length ≤ 1024) (kind tag : Byte) (check : BitVec 16) :
    (0xA5 :: BitVec.ofNat 8 (body.length / 256) :: BitVec.ofNat 8 body.length :: kind :: tag :: (body ++ beBytes 2 check.toNat)).foldl
        (receiveByte p) s
      = takeNext p (s.setDev
          (if linkCheck (BitVec.ofNat 8 (body.length / 256) :: BitVec.ofNat 8 body.length :: kind :: tag :: body) = check
              ∧ kind.getLsbD 7 = false then
            offerRequest s.site p ⟨kind, tag, body⟩ (s.dev.setRx p rxSeek)
          else dropFrame s.site p s.dev)) := by
  have hlen := frameLength_halves hmax
  have hframe := foldl_receiveByte_frame hidle hseek hlen hmax kind tag (BitVec.ofNat 8 (check.toNat / 256)) (BitVec.ofNat 8 check.toNat)
  have hjudge := judgeFrame_check s.site p hlen kind tag check s.dev
  simp only [beBytes, Nat.pow_one, Nat.pow_zero, Nat.div_one] at hjudge ⊢
  rw [hframe, hjudge]

/-- A whole request frame received on an idle line with nothing to take is offered to the input queue. -/
theorem exec_mgmtFrameReceived_request {p : Port} {s : State} (hidle : NothingToTake p s) (hseek : (s.dev.port p).rx.state = .seek)
    {kind tag : Byte} {body : Bytes} (hmax : body.length ≤ 1024) (hkind : kind.getLsbD 7 = false) :
    exec (.mgmtFrameReceived p (requestFrame kind tag body)) s
      = .next (takeNext p (s.setDev (offerRequest s.site p ⟨kind, tag, body⟩ (s.dev.setRx p rxSeek)))) := by
  change Host.Outcome.next _ = _
  rw [requestFrame_eq, foldl_receiveByte_checked hidle hseek hmax, if_pos ⟨rfl, hkind⟩]

theorem offerRequest_of_room {x : Site} {p : Port} {d : Device} (hroom : (d.port p).queue.length < 4) (r : Request) :
    offerRequest x p r d = d.setPort p { d.port p with queue := (d.port p).queue ++ [r] } := if_pos hroom

theorem offerRequest_of_full (x : Site) (p : Port) (d : Device) (r : Request) : 4 ≤ (d.port p).queue.length →
    offerRequest x p r d = count x .link (match p with | .network => 2 | .maintenance => 3) d :=
  fun hfull => if_neg (Nat.not_lt.mpr hfull)

/-- Settles O12: the frame's bytes lead to the offering of its request, which the room of the queue decides. -/
theorem requestFrameReceived : Obligations.RequestFrameReceived := by
  intro p kind tag body s hseek hmax hkind
  refine ⟨fun hservice hroom => ?queued, fun hservice hfull => ?full, fun hservice hqueue hreply => ?taken⟩
  case queued =>
    rw [exec_mgmtFrameReceived_request (.inl hservice) hseek hmax hkind, offerRequest_of_room (by simpa using hroom)]
    rw [takeNext_nothing (.inl (by simpa using hservice))]
    simp [Device.setRx, rxSeek]
  case full =>
    have hidle : NothingToTake p (s.setRx p rxSeek) := .inl (by simpa using hservice)
    rw [exec_mgmtFrameReceived_request (.inl hservice) hseek hmax hkind, offerRequest_of_full _ _ _ _ (by simpa using hfull)]
    exact congrArg Host.Outcome.next (takeNext_nothing (nothingToTake_count hidle s.site .link _))
  case taken =>
    rw [exec_mgmtFrameReceived_request (.inr (.inl hqueue)) hseek hmax hkind, offerRequest_of_room (by simp [hqueue]),
      takeNext_of_queue (r := ⟨kind, tag, body⟩) (rest := []) (by simpa using hservice) (by simp [hqueue]) (by simpa using hreply)]
    simp [Device.setRx, rxSeek, hqueue]

/-! ### Broken frames (R9, R170) -/

/-- The second length byte of a body above 1,024 bytes discards the frame. -/
theorem receiveByte_length_over {p : Port} {s : State} (hidle : NothingToTake p s) {hi lo : Byte} (hlen : 1024 < frameLength [hi, lo]) :
    receiveByte p (s.setRx p ⟨.length, [hi], 0⟩) lo = s.setDev (dropFrame s.site p s.dev) := by
  have hover : frameLength [hi, lo] > Config.maxBody := hlen
  have hstep : rxByte s.site p (s.dev.setRx p ⟨.length, [hi], 0⟩) lo = dropFrame s.site p s.dev := by
    simp [rxByte, hover, dropFrame]
  rw [receiveByte, State.setRx_site, State.setRx_dev, hstep, State.setRx_setDev, takeNext_dropFrame hidle]

/-- Settles O13: each way a frame breaks off leads to its discarding. -/
theorem brokenFrameDropped : Obligations.BrokenFrameDropped := by
  intro p hi lo s dropped
  refine ⟨fun hseek hidle hlen => ?overlong, fun hinside => ?framing, fun hseek => ?passed, fun hinside hsilence => ?silence,
    fun kind tag body check hseek hidle hmax hbad => ?whole⟩
  case overlong =>
    have hframe : 1024 < frameLength [hi, lo] := by simpa [frameLength, fieldAt, beNat] using hlen
    change Host.Outcome.next ([0xA5, hi, lo].foldl (receiveByte p) s) = _
    simp only [List.foldl_cons, List.foldl_nil]
    rw [receiveByte_start hidle hseek, receiveByte_length_first hidle, receiveByte_length_over hidle hframe]
    rfl
  case framing => exact if_neg hinside
  case passed => exact if_pos hseek
  case silence =>
    refine if_neg ?_
    have hlong : ¬ (s.dev.port p).rx.silence < Config.mgmtSilenceTicks := Nat.not_lt.mpr hsilence
    simp [hinside, hlong]
  case whole =>
    have hno : ¬ (linkCheck (BitVec.ofNat 8 (body.length / 256) :: BitVec.ofNat 8 body.length :: kind :: tag :: body) = check
        ∧ kind.getLsbD 7 = false) := by
      rintro ⟨hcheck, hkind⟩
      rcases hbad with hbad | hbad
      · exact absurd (hbad.symm.trans hkind) (by decide)
      · exact hbad (by simp [beBytes, ← hcheck])
    have hwhole := foldl_receiveByte_checked hidle hseek hmax kind tag check
    rw [if_neg hno, takeNext_dropFrame hidle] at hwhole
    have hbytes : 0xA5 :: beBytes 2 body.length ++ [kind, tag] ++ body ++ beBytes 2 check.toNat
        = 0xA5 :: BitVec.ofNat 8 (body.length / 256) :: BitVec.ofNat 8 body.length :: kind :: tag :: (body ++ beBytes 2 check.toNat) := by
      simp [beBytes]
    change Host.Outcome.next _ = _
    rw [hbytes, hwhole]
    rfl

/-! ### The transmitter (R171, R180) -/

/-- A frame sent in full: the next waiting frame starts, and then a request is taken where one can be. -/
theorem exec_mgmtFrameSent_sending {p : Port} {s : State} {f : TxFrame} (hsending : (s.dev.port p).tx.sending = some f) :
    exec (.mgmtFrameSent p) s
      = .next (takeNext p (s.setDev (s.dev.setPort p { s.dev.port p with tx := (s.dev.port p).tx.sent }))) := by
  change execMgmtFrameSent p s = _
  rw [execMgmtFrameSent, hsending]

theorem sent_of_waiting {t : Transmitter} {g : TxFrame} {gs : List TxFrame} (h : t.waiting = g :: gs) : t.sent = ⟨some g, gs⟩ := by
  rw [Transmitter.sent, h]

theorem sent_of_none {t : Transmitter} (h : t.waiting = []) : t.sent = ⟨none, []⟩ := by
  rw [Transmitter.sent, h]

/-- A transmitter that has just started a frame holds a reply exactly where one of its frames is no Attention. -/
theorem holdsReply_started (g : TxFrame) (gs : List TxFrame) :
    (Transmitter.mk (some g) gs).holdsReply = (g :: gs).any (fun h => !h.attention) := rfl

/-- Settles O14: the transmitter's next frame, and then the taking that its replies allow. -/
theorem frameSentStartsNext : Obligations.FrameSentStartsNext := by
  intro p f g gs r rs s hsending
  rw [exec_mgmtFrameSent_sending hsending]
  refine ⟨fun hwaiting hkeep => ?starts, fun hwaiting hservice hqueue hall => ?startsTaking, fun hwaiting hqueue => ?ends,
    fun hwaiting hservice hqueue => ?endsTaking⟩
  case starts =>
    rw [sent_of_waiting hwaiting, takeNext_nothing]
    unfold NothingToTake
    rw [State.setDev_dev, Device.port_setPort, holdsReply_started]
    simpa using hkeep
  case startsTaking =>
    rw [sent_of_waiting hwaiting, takeNext_of_queue (r := r) (rest := rs) (by simpa using hservice) (by simpa using hqueue)]
    · simp
    · rw [State.setDev_dev, Device.port_setPort, holdsReply_started]
      simpa using hall
  case ends =>
    rw [sent_of_none hwaiting, takeNext_nothing (.inr (.inl (by simpa using hqueue)))]
  case endsTaking =>
    rw [sent_of_none hwaiting, takeNext_of_queue (r := r) (rest := rs) (by simpa using hservice) (by simpa using hqueue)
      (by simp [Transmitter.holdsReply])]
    simp

/-! ### The checks of a request (R10, R172) -/

/-- Every row of a request serves the requests of its kind. -/
theorem exec_row (k : Kind) (p : Port) : ∃ owner, ∀ s, exec (k.row p) s = serve k p owner s := by
  cases k <;> exact ⟨_, fun s => rfl⟩

theorem exec_unknownKind {p : Port} {r : Request} {o : Option Status} {s : State} (hservice : (s.dev.port p).service = some ⟨r, o⟩)
    (hkind : kindOf r.kind = none) : exec (.unknownKind p) s = .next (sendReply p r .unknownKind [] s) := by
  change execUnknownKind p s = _
  simp [execUnknownKind, takeNext_service hservice, hservice, hkind]

/-- Settles O15: the first check that fails names the refusal, and the row of the request answers with it alone. -/
theorem requestsAreChecked : Obligations.RequestsAreChecked := by
  refine ⟨fun ph c p r => ⟨fun hkind => ?unknown, fun k hkind => ⟨fun hlen => ?length, fun hlen => ⟨fun hport => ?port, fun hport =>
    ⟨fun st hphase => ?phase, fun hphase => ⟨fun hneeds hheld => ?control, fun hpass => ?passes⟩⟩⟩⟩⟩, fun p r s => ⟨?_, ?_⟩⟩
  case unknown => simp [takingRefusal, hkind]
  case length => simp [takingRefusal, hkind, hlen]
  case port => simp [takingRefusal, hkind, hlen, hport]
  case phase => simp [takingRefusal, hkind, hlen, hport, hphase]
  case control => simp [takingRefusal, hkind, hlen, hport, hphase, hneeds, hheld]
  case passes => rcases hpass with hneeds | hheld <;> simp [takingRefusal, *]
  · intro k st hservice hkind
    obtain ⟨owner, hrow⟩ := exec_row k p
    rw [hrow, serve_refused hservice hkind]
  · exact fun o hservice hkind => exec_unknownKind hservice hkind

end Sys2Proof.Machine
end

section
/-! PROOFS. Masks, control, lockout and phase: SetMask, the moves of control, SetLockout and Release (R174, R176, R177, R179). -/

namespace Sys2Proof.Machine

/-! ### Masks (R179) -/

/-- A recomputed summary written out: its value, and the transmitter with an Attention where it rises. -/
theorem refreshPort_eq (word : BitVec 16) (q : PortState) :
    refreshPort word q = { q with
      summary := (word &&& q.mask) != 0
      tx := if (word &&& q.mask) != 0 && !q.summary then q.tx.putAttention (attentionFrame word q.mask) else q.tx } := by
  unfold refreshPort
  dsimp only
  split
  · next h =>
    have hon : ((word &&& q.mask) != 0) = true := by simp only [Bool.and_eq_true] at h; exact h.1
    rw [hon]
  · rfl

/-- Settles O19: the port with the new mask has its summary recomputed. -/
theorem maskIsStored : Obligations.MaskIsStored := by
  intro p r s hserve
  refine ⟨_, serve_serving hserve, ?_⟩
  simp only [ownSetMask, refreshPort_eq]
  rfl

/-! ### Control (R176) -/

/-- Control moved with a notice. -/
theorem moveControl_latched (c : Control) (s : State) :
    moveControl c true s = { s with control := c, dev := refresh s.site { s.dev with latched := s.dev.latched ||| 0x1000#16 } } := rfl

/-- Control moved without a notice. -/
theorem moveControl_silent (c : Control) (s : State) : moveControl c false s = { s with control := c } := rfl

theorem ownTakeLocal_lockedOut {s : State} (h : s.lockout = true) (r : Request) : ownTakeLocal r s = .refuse s .lockedOut := if_pos h

theorem ownTakeLocal_free {s : State} (h : s.lockout = false) (r : Request) :
    ownTakeLocal r s = .ok (moveControl .local_ (s.control == .network) s) := by
  simp [ownTakeLocal, h]

/-- TakeLocal under lockout, on either port. -/
theorem exec_takeLocal_lockedOut {p : Port} {r : Request} {s : State} (hserve : Serving .takeLocal p r s) (hlock : s.lockout = true) :
    exec (.takeLocal p) s = .next (sendReply p r .lockedOut [] s) := by
  change execTakeLocal p s = _
  rw [execTakeLocal, serve_serving hserve, ownTakeLocal_lockedOut hlock]
  rfl

/-- Settles O21: each request moves control to its holder, with the notice the prior holder decides. -/
theorem controlMoves : Obligations.ControlMoves := by
  intro p r s
  refine ⟨exec_takeLocal_lockedOut, fun hserve hlock hctl => ?takes, fun hserve hlock hctl => ?keeps, fun hserve => serve_serving hserve,
    fun hserve hctl => ?claims, fun hserve hctl => ?has⟩
  case takes =>
    change execTakeLocal p s = _
    rw [execTakeLocal, serve_serving hserve, ownTakeLocal_free hlock, hctl]
    rfl
  case keeps =>
    change execTakeLocal p s = _
    rw [execTakeLocal, serve_serving hserve, ownTakeLocal_free hlock, hctl]
    change Host.Outcome.next (sendReply p r .ok [] { s with control := .local_ }) = _
    rw [← hctl]
  case claims =>
    change execClaimRemote p s = _
    rw [execClaimRemote, serve_serving hserve, ownClaimRemote, hctl]
    rfl
  case has =>
    change execClaimRemote p s = _
    rw [execClaimRemote, serve_serving hserve, ownClaimRemote, hctl]
    change Host.Outcome.next (sendReply p r .ok [] { s with control := .network }) = _
    rw [← hctl]

/-! ### Lockout (R177) -/

theorem ownSetLockout_off {r : Request} (h : readFlag (byteAt r.body 0) = some false) (s : State) :
    ownSetLockout r s = .ok { s with lockout := false } := by
  rw [ownSetLockout, h]

theorem ownSetLockout_on {r : Request} (h : readFlag (byteAt r.body 0) = some true) (s : State) :
    ownSetLockout r s = .ok (moveControl .network (s.control == .local_) { s with lockout := true }) := by
  rw [ownSetLockout, h]

theorem ownSetLockout_bad {r : Request} (h : readFlag (byteAt r.body 0) = none) (s : State) : ownSetLockout r s = .refuse s .badField := by
  rw [ownSetLockout, h]

/-- A request that needs control is refused on the port that does not hold it. -/
theorem takingRefusal_without_control {k : Kind} {c : Control} {p : Port} {r : Request} (hkind : kindOf r.kind = some k)
    (hneeds : k.needsControl = true) (hheld : c.port ≠ p) (ph : Phase) : (takingRefusal ph c p r).isSome = true := by
  simp only [takingRefusal, hkind]
  split
  · rfl
  · split
    · rfl
    · split
      · rfl
      · simp [hneeds, hheld]

/-- Settles O22: what a SetLockout byte does, what lockout forbids, and the law of control that every step keeps. -/
theorem lockoutIsSet : Obligations.LockoutIsSet := by
  refine ⟨fun ph c r hkind => ⟨fun hlen p => ?length, fun hlen => ⟨?network, ?maintenance⟩⟩,
    fun p r s hserve => ⟨fun hbody => ?off, fun hbody hctl => ?onNetwork, fun hbody hctl => ?onLocal, fun b hb hbody => ?bad⟩,
    fun p r s => exec_takeLocal_lockedOut, fun k ph r s hlaw hlock hkind hneeds => ?control, lockoutLawKept⟩
  case length => simp [takingRefusal, hkind, Kind.lengthOk, hlen]
  case network => cases ph <;> simp [takingRefusal, hkind, Kind.lengthOk, hlen, Kind.portOk, Kind.phaseRefusal, Kind.needsControl]
  case maintenance => simp [takingRefusal, hkind, Kind.lengthOk, hlen, Kind.portOk]
  case off =>
    change execSetLockout p s = _
    rw [execSetLockout, serve_serving hserve, ownSetLockout_off (by rw [hbody]; rfl)]
    rfl
  case onNetwork =>
    change execSetLockout p s = _
    rw [execSetLockout, serve_serving hserve, ownSetLockout_on (by rw [hbody]; rfl), hctl]
    change Host.Outcome.next (sendReply p r .ok [] { s with lockout := true, control := .network }) = _
    rw [← hctl]
  case onLocal =>
    change execSetLockout p s = _
    rw [execSetLockout, serve_serving hserve, ownSetLockout_on (by rw [hbody]; rfl), hctl]
    rfl
  case bad =>
    have hflag : readFlag (byteAt r.body 0) = none := by
      rw [hbody]
      exact readFlag_eq_none hb
    change execSetLockout p s = _
    rw [execSetLockout, serve_serving hserve, ownSetLockout_bad hflag]
    rfl
  case control =>
    refine takingRefusal_without_control hkind hneeds ?_ ph
    rw [hlaw hlock]
    decide

/-! ### Release (R174) -/

/-- The first index at which a search over all indices finds something. -/
theorem findSome_finRange {α : Type} : ∀ {n : Nat} {f : Fin n → Option α} {i : Fin n} {a : α}, f i = some a → (∀ j < i, f j = none) →
    (List.finRange n).findSome? f = some a
  | 0, _, i, _, _, _ => i.elim0
  | n + 1, f, i, a, hi, hbefore => by
    rw [List.finRange_succ, List.findSome?_cons]
    cases i using Fin.cases with
    | zero => rw [hi]
    | succ i =>
      rw [hbefore 0 (Fin.succ_pos i), List.findSome?_map]
      exact findSome_finRange hi fun j hj => hbefore j.succ (Fin.succ_lt_succ_iff.mpr hj)

/-- The fault of one programme's settings, with its code, if there is one (R174). -/
def ProgrammeSet.fault (g : ProgrammeSet) : Option Nat :=
  if !g.enabled then none
  else if g.cueSid.isNone then some 2
  else if g.comps.toList.all Option.isNone then some 3
  else none

theorem configFault_of_period {x : Site} (h : x.timing.period = 0) : configFault x = some (1, 255) := if_pos h

/-- The validation of Release is a search for the first programme at fault. -/
theorem configFault_eq_search {x : Site} (h : x.timing.period ≠ 0) :
    configFault x = (List.finRange 8).findSome? fun q => (x.progs[q]).fault.map fun code => (code, q.val) := by
  rw [configFault, if_neg h]
  congr 1
  funext q
  simp only [ProgrammeSet.fault]
  split
  · rfl
  · split
    · rfl
    · split <;> rfl

theorem all_comps_none_iff (g : ProgrammeSet) : g.comps.toList.all Option.isNone = true ↔ ∀ c : Fin 8, g.comps[c] = none := by
  rw [List.all_eq_true]
  simp only [Vector.mem_toList_iff, Option.isNone_iff_eq_none]
  constructor
  · exact fun h c => h _ (Vector.getElem_mem _)
  · rintro h o ho
    obtain ⟨i, hi, rfl⟩ := Vector.mem_iff_getElem.mp ho
    exact h ⟨i, hi⟩

/-- Settings that pass the validation have no fault. -/
theorem ProgrammeSet.fault_of_valid {g : ProgrammeSet} (h : g.valid) : g.fault = none := by
  unfold ProgrammeSet.fault
  by_cases henabled : g.enabled = true
  · obtain ⟨hcue, c, hcomp⟩ := h henabled
    have hsome : ¬ g.comps.toList.all Option.isNone = true := by
      rw [all_comps_none_iff]
      intro hnone
      simp [hnone c] at hcomp
    obtain ⟨sid, hsid⟩ := Option.isSome_iff_exists.mp hcue
    simp only [henabled, hsid, hsome, Bool.not_true, Option.isNone_some, Bool.false_eq_true, if_false]
  · simp [henabled]

theorem ProgrammeSet.fault_without_cue {g : ProgrammeSet} (henabled : g.enabled = true) (hcue : g.cueSid = none) : g.fault = some 2 := by
  simp [ProgrammeSet.fault, henabled, hcue]

theorem ProgrammeSet.fault_without_component {g : ProgrammeSet} (henabled : g.enabled = true) (hcue : g.cueSid.isSome = true)
    (hcomps : ∀ c : Fin 8, g.comps[c] = none) : g.fault = some 3 := by
  have hall := (all_comps_none_iff g).mpr hcomps
  obtain ⟨sid, hsid⟩ := Option.isSome_iff_exists.mp hcue
  simp only [ProgrammeSet.fault, henabled, hsid, hall, Bool.not_true, Option.isNone_some, Bool.false_eq_true, if_false, if_true]

theorem configFault_of_first {x : Site} (h : x.timing.period ≠ 0) {q : ProgNo} {code : Nat}
    (hbefore : ∀ q' < q, ProgrammeSet.valid x.progs[q']) (hfault : (x.progs[q]).fault = some code) :
    configFault x = some (code, q.val) := by
  rw [configFault_eq_search h]
  refine findSome_finRange (i := q) (by rw [hfault]; rfl) fun j hj => ?_
  rw [ProgrammeSet.fault_of_valid (hbefore j hj)]
  rfl

theorem configFault_of_valid {x : Site} (h : x.timing.period ≠ 0) (hvalid : ∀ q : ProgNo, ProgrammeSet.valid x.progs[q]) :
    configFault x = none := by
  rw [configFault_eq_search h, List.findSome?_eq_none_iff]
  intro q _
  rw [ProgrammeSet.fault_of_valid (hvalid q)]
  rfl

/-- Release with a fault of the configuration. -/
theorem exec_release_fault {p : Port} {r : Request} {s : State} (hserve : Serving .release p r s) {code prog : Nat}
    (h : configFault s.site = some (code, prog)) :
    exec (.release p) s = .next (sendReply p r .configInvalid (beBytes 1 code ++ beBytes 1 prog) s) := by
  change execRelease p s = _
  rw [execRelease, serve_serving hserve, ownRelease, h]

/-- Settles O23: the first fault of the configuration is the answer, and without one the phase moves. -/
theorem releaseStartsRunning : Obligations.ReleaseStartsRunning := by
  intro p r s hserve
  refine ⟨fun hperiod => ?period, fun hperiod hvalid => ?valid, fun q hperiod hbefore henabled hcue => ?cue,
    fun q hperiod hbefore henabled hcue hcomps => ?component⟩
  case period => exact exec_release_fault hserve (configFault_of_period hperiod)
  case valid =>
    change execRelease p s = _
    rw [execRelease, serve_serving hserve, ownRelease, configFault_of_valid hperiod hvalid]
    rfl
  case cue =>
    rw [exec_release_fault hserve (configFault_of_first hperiod hbefore (ProgrammeSet.fault_without_cue henabled hcue)), beBytes_one,
      beBytes_one]
    rfl
  case component =>
    rw [exec_release_fault hserve (configFault_of_first hperiod hbefore (ProgrammeSet.fault_without_component henabled hcue hcomps)),
      beBytes_one, beBytes_one]
    rfl

end Sys2Proof.Machine
end

section
/-! PROOFS. The settings a request writes: windows, time, timing, the host choice and programmes (R25, R60, R61, R66, R67, R75, R76,
R134). -/

namespace Sys2Proof.Machine

/-! ### Values kept within a range -/

theorem clampNat_range {lo hi : Nat} (h : lo ≤ hi) (v : Nat) : lo ≤ clampNat lo hi v ∧ clampNat lo hi v ≤ hi := by
  unfold clampNat
  split
  · omega
  · split <;> omega

theorem clampInt_range {lo hi : Int} (h : lo ≤ hi) (v : Int) : lo ≤ clampInt lo hi v ∧ clampInt lo hi v ≤ hi := by
  unfold clampInt
  split
  · omega
  · split <;> omega

theorem clampNat_inside {lo hi v : Nat} (hlo : lo ≤ v) (hhi : v ≤ hi) : clampNat lo hi v = v := by
  simp only [clampNat, Nat.not_lt.mpr hlo, Nat.not_lt.mpr hhi, if_false]

theorem clampNat_below {lo hi v : Nat} (h : v < lo) : clampNat lo hi v = lo := if_pos h

theorem clampNat_above {lo hi v : Nat} (hle : lo ≤ hi) (h : hi < v) : clampNat lo hi v = hi := by
  have hlo : ¬ v < lo := by omega
  simp only [clampNat, hlo, h, if_false, if_true]

/-! ### Windows and the default action (R25) -/

/-- What a body that reads as a window says of the window's translation. -/
theorem readWindow_translate {b : Bytes} {i : Fin 16} {w : Window} {t : Sid} (hread : readWindow b = some (i, w))
    (ht : w.translate = some t) : w.kind = .carry ∧ t &&& w.mask ≠ w.mask := by
  simp only [readWindow] at hread
  split at hread
  · next i' en pres _ _ _ =>
    split at hread
    · next fs kd _ _ =>
      split at hread
      · exact absurd hread nofun
      · split at hread
        · exact absurd hread nofun
        · split at hread
          · exact absurd hread nofun
          · split at hread
            · exact absurd hread nofun
            · next hkind hreach =>
              cases hread
              cases pres with
              | false => exact absurd ht nofun
              | true =>
                cases ht
                exact ⟨by simpa using hkind, by simpa using hreach⟩
    · exact absurd hread nofun
  · exact absurd hread nofun

/-- A body whose fields are those of a window for both feeds that carries and translates. -/
theorem readWindow_of_fields {b : Bytes} {i : Fin 16} {en : Bool} {base mask t : Sid} (hindex : finOf 16 (byteAt b 0).toNat = some i)
    (henabled : readFlag (byteAt b 1) = some en) (hfeeds : byteAt b 2 = 3) (hkind : byteAt b 3 = 1)
    (hpresent : readFlag (byteAt b 8) = some true) (hbase : fieldAt b 4 2 = base.toNat) (hmask : fieldAt b 6 2 = mask.toNat)
    (htrans : fieldAt b 9 2 = t.toNat) (hreach : t &&& mask ≠ mask) :
    readWindow b = some (i, ⟨en, .both, .carry, base, mask, some t⟩) := by
  have hbaseMax : ¬ base.toNat > 4095 := by omega
  have hmaskMax : ¬ mask.toNat > 4095 := by omega
  have htransMax : ¬ t.toNat > 4095 := by omega
  simp [readWindow, hindex, henabled, hfeeds, hkind, hpresent, hbase, hmask, htrans, hbaseMax, hmaskMax, htransMax, hreach]

theorem sid_mod (t : Sid) : t.toNat % 65536 = t.toNat := Nat.mod_eq_of_lt (by omega)

/-- The fields of the body of a window for both feeds that carries and translates (R25). -/
def carryFields (i : Fin 16) (en : Bool) (base mask t : Sid) : List (Nat × Nat) :=
  [(1, i.val), (1, flagCode en), (1, 3), (1, 1), (2, base.toNat), (2, mask.toNat), (1, 1), (2, t.toNat)]

theorem readWindow_carryFields (i : Fin 16) (en : Bool) (base mask t : Sid) (hreach : t &&& mask ≠ mask) :
    readWindow (writeFields (carryFields i en base mask t)) = some (i, ⟨en, .both, .carry, base, mask, some t⟩) := by
  obtain ⟨-, -, -, -, hbase, hmask, -, htrans, -⟩ := fieldsFrom_writeFields (carryFields i en base mask t)
  have hindex : (BitVec.ofNat 8 (i.val / 1)).toNat = i.val := by
    simp
    omega
  refine readWindow_of_fields ?_ ?_ rfl rfl rfl (hbase.trans ?_) (hmask.trans ?_) (htrans.trans ?_) hreach
  · change finOf 16 (BitVec.ofNat 8 (i.val / 1)).toNat = some i
    rw [hindex, finOf_val]
  · cases en <;> rfl
  all_goals exact sid_mod _

/-- Settles O25: what the body reads as decides; the form of a window with a translation is in the checks of the reading. -/
theorem windowIsWritten : Obligations.WindowIsWritten := by
  refine ⟨fun p r s => ⟨fun i w hserve hread => ?window, fun hserve hread => ?badWindow, fun hserve hbody => ?carry,
    fun hserve hbody => ?drop⟩, fun b i w t => readWindow_translate, fun i en base mask t hreach => ?reads⟩
  case window =>
    change execSetWindow p s = _
    rw [execSetWindow, serve_serving hserve, ownSetWindow, hread]
    rfl
  case badWindow =>
    change execSetWindow p s = _
    rw [execSetWindow, serve_serving hserve, ownSetWindow, hread]
    rfl
  case carry =>
    change execSetDefaultAction p s = _
    rw [execSetDefaultAction, serve_serving hserve, ownSetDefaultAction, hbody]
    rfl
  case drop =>
    change execSetDefaultAction p s = _
    rw [execSetDefaultAction, serve_serving hserve, ownSetDefaultAction, hbody]
    rfl
  case reads =>
    rw [← readWindow_carryFields i en base mask t hreach]
    congr 1
    cases en <;> simp [writeFields, carryFields, beBytes_one, flagCode]

/-! ### Time settings (R60, R61) -/

/-- The fields of a SetTimebase body (R61). -/
def timebaseBody (w n h : Nat) : Bytes := beBytes 2 w ++ beBytes 1 n ++ beBytes 4 h

theorem timebaseBody_fields {w n h : Nat} (hw : w < 65536) (hn : n < 256) (hh : h < 4294967296) :
    fieldAt (timebaseBody w n h) 0 2 = w ∧ fieldAt (timebaseBody w n h) 2 1 = n ∧ fieldAt (timebaseBody w n h) 3 4 = h := by
  have hbody : timebaseBody w n h = writeFields [(2, w), (1, n), (4, h)] := by simp [timebaseBody, writeFields]
  obtain ⟨hfw, hfn, hfh, -⟩ := fieldsFrom_writeFields [(2, w), (1, n), (4, h)]
  rw [hbody]
  exact ⟨hfw.trans (Nat.mod_eq_of_lt hw), hfn.trans (Nat.mod_eq_of_lt hn), hfh.trans (Nat.mod_eq_of_lt hh)⟩

theorem timebaseBody_inj {w n h w' n' h' : Nat} (hw : w < 65536) (hn : n < 256) (hh : h < 4294967296) (hw' : w' < 65536) (hn' : n' < 256)
    (hh' : h' < 4294967296) : timebaseBody w' n' h' = timebaseBody w n h ↔ w' = w ∧ n' = n ∧ h' = h := by
  refine ⟨fun heq => ?_, by rintro ⟨rfl, rfl, rfl⟩; rfl⟩
  obtain ⟨hfw, hfn, hfh⟩ := timebaseBody_fields hw hn hh
  obtain ⟨hfw', hfn', hfh'⟩ := timebaseBody_fields hw' hn' hh'
  rw [heq] at hfw' hfn' hfh'
  exact ⟨hfw'.symm.trans hfw, hfn'.symm.trans hfn, hfh'.symm.trans hfh⟩

/-- SetTimebase with the three settings of its body. -/
theorem ownSetTimebase_of_body {r : Request} {w n h : Nat} (hw : w < 65536) (hn : n < 256) (hh : h < 4294967296)
    (hbody : r.body = timebaseBody w n h) (s : State) :
    ownSetTimebase r s =
      ⟨s.setTb { s.site.tb with
          lockWindow := clampNat 1 1000 w, pulsesToLock := clampNat 1 16 n, holdoverLimit := clampNat 1 86400 h },
        if clampNat 1 1000 w = w ∧ clampNat 1 16 n = n ∧ clampNat 1 86400 h = h then .ok else .okClamped,
        if clampNat 1 1000 w = w ∧ clampNat 1 16 n = n ∧ clampNat 1 86400 h = h then []
          else timebaseBody (clampNat 1 1000 w) (clampNat 1 16 n) (clampNat 1 86400 h)⟩ := by
  obtain ⟨hfw, hfn, hfh⟩ := timebaseBody_fields hw hn hh
  have hrw := clampNat_range (show 1 ≤ 1000 by decide) w
  have hrn := clampNat_range (show 1 ≤ 16 by decide) n
  have hrh := clampNat_range (show 1 ≤ 86400 by decide) h
  have hused := timebaseBody_inj hw hn hh (w' := clampNat 1 1000 w) (n' := clampNat 1 16 n) (h' := clampNat 1 86400 h) (by omega) (by omega)
    (by omega)
  simp only [ownSetTimebase, hbody, hfw, hfn, hfh]
  change (if timebaseBody _ _ _ = timebaseBody w n h then _ else _) = _
  simp only [hused]
  split <;> rfl

/-- Settles O27: the label is the number of the four bytes, and each of the three settings is kept within its range. -/
theorem timeSettings : Obligations.TimeSettings := by
  intro p r s
  refine ⟨fun l hserve hbody => ?label, fun w n h hserve hbody => ?timebase⟩
  case label =>
    have hfield : fieldAt r.body 0 4 = l.toNat := by
      rw [hbody]
      exact (fieldAt_append_beBytes [] 4 l.toNat).trans (Nat.mod_eq_of_lt l.isLt)
    change execSetTime p s = _
    rw [execSetTime, serve_serving hserve, ownSetTime, hfield, BitVec.ofNat_toNat, BitVec.setWidth_eq]
    rfl
  case timebase =>
    have hrw := clampNat_range (show 1 ≤ 1000 by decide) w.toNat
    have hrn := clampNat_range (show 1 ≤ 16 by decide) n.toNat
    have hrh := clampNat_range (show 1 ≤ 86400 by decide) h.toNat
    refine ⟨clampNat 1 1000 w.toNat, clampNat 1 16 n.toNat, clampNat 1 86400 h.toNat, hrw.1, hrw.2, hrn.1, hrn.2, hrh.1, hrh.2,
      clampNat_inside, fun hz => clampNat_below (by omega), clampNat_above (by decide),
      clampNat_inside, fun hz => clampNat_below (by omega), clampNat_above (by decide),
      clampNat_inside, fun hz => clampNat_below (by omega), clampNat_above (by decide), ?_⟩
    change execSetTimebase p s = _
    rw [execSetTimebase, serve_serving hserve, ownSetTimebase_of_body w.isLt n.isLt h.isLt hbody]
    rfl

/-! ### Site timing (R66, R67) -/

/-- The settings of a SetSite body are within their ranges. -/
theorem readTiming_range {b : Bytes} {t : Timing} (h : readTiming b = some t) :
    -500000 ≤ t.offset ∧ t.offset ≤ 500000 ∧ t.latency ≤ 2000000 ∧ t.guard ≤ 1000000
      ∧ 1000000 ≤ t.horizon ∧ t.horizon ≤ 50000000 ∧ (t.period = 0 ∨ (10000 ≤ t.period ∧ t.period ≤ 10000000))
      ∧ t.tolerance ≤ 100000 ∧ 1 ≤ t.credits ∧ t.credits ≤ 8 ∧ t.region ≤ 15 := by
  simp only [readTiming] at h
  split at h
  · exact absurd h nofun
  · cases h
    have hoffset := clampInt_range (show (-500000 : Int) ≤ 500000 by decide) (ofTwos32 (fieldAt b 1 4))
    have hhorizon := clampNat_range (show 1000000 ≤ 50000000 by decide) (fieldAt b 13 4)
    have hcredits := clampNat_range (show 1 ≤ 8 by decide) (byteAt b 25).toNat
    have hlatency := clampNat_range (show 0 ≤ 2000000 by decide) (fieldAt b 5 4)
    have hguard := clampNat_range (show 0 ≤ 1000000 by decide) (fieldAt b 9 4)
    have htolerance := clampNat_range (show 0 ≤ 100000 by decide) (fieldAt b 21 4)
    have hregion := clampNat_range (show 0 ≤ 15 by decide) (byteAt b 26).toNat
    refine ⟨hoffset.1, hoffset.2, hlatency.2, hguard.2, hhorizon.1, hhorizon.2, ?_, htolerance.2, hcredits.1, hcredits.2, hregion.2⟩
    dsimp only
    split
    · exact .inl rfl
    · exact .inr (clampNat_range (by decide) _)

/-- Settles O28: the phase decides between all settings, the offset alone, and a refusal. -/
theorem timingIsWritten : Obligations.TimingIsWritten := by
  refine ⟨fun b t => readTiming_range, fun p r s t hserve hread => ⟨fun hphase => ?held, fun hphase hsame => ?offset,
    fun hphase hdiffer => ?refused⟩⟩
  all_goals
    change execSetSite p s = _
    rw [execSetSite, serve_serving hserve, ownSetSite, hread]
    simp only [hphase]
  case held => split <;> rfl
  case offset =>
    have ht : t = { s.site.timing with offset := t.offset } := by
      rw [← hsame]
    simp only [hsame, ne_eq, not_true_eq_false, if_false]
    rw [← ht]
    split <;> rfl
  case refused =>
    simp only [hdiffer, ne_eq, not_false_eq_true, if_true]
    rfl

/-! ### The host choice (R75, R76) -/

theorem ownSetOutputMode_of_choice {r : Request} {c : HostChoice} (h : hostChoiceOf (byteAt r.body 0).toNat = some c) (s : State) :
    ownSetOutputMode r s = .ok { s with
      site := { s.site with hostChoice := c }
      dev := afterModeChange { s.site with hostChoice := c } (refresh { s.site with hostChoice := c } s.dev) } := by
  rw [ownSetOutputMode, h]
  rfl

/-- A change of the output mode with no item waiting changes nothing. -/
theorem afterModeChange_of_no_wait {d : Device} (h : ∀ k due, d.em.item ≠ some ⟨k, due, .waiting⟩) (x : Site) : afterModeChange x d = d := by
  unfold afterModeChange
  split
  · next k due hitem => exact absurd hitem (h k due)
  · rfl

theorem hostChoiceOf_eq_none {n : Nat} (h : n = 0 ∨ 4 ≤ n) : hostChoiceOf n = none := by
  unfold hostChoiceOf
  split
  · omega
  · omega
  · omega
  · rfl

/-- Settles O29: the byte names the choice, and the mode's change finds no item waiting. -/
theorem hostChoiceIsSet : Obligations.HostChoiceIsSet := by
  intro p r s hserve
  refine ⟨fun c code hcode hbody => ?_, fun code hbody hbad => ?bad⟩
  · have hchoice : hostChoiceOf (byteAt r.body 0).toNat = some c := by
      rw [hbody, hcode]
      cases c <;> rfl
    have hexec : exec (.setOutputMode p) s = .next (sendReply p r .ok [] { s with
        site := { s.site with hostChoice := c }
        dev := afterModeChange { s.site with hostChoice := c } (refresh { s.site with hostChoice := c } s.dev) }) := by
      change execSetOutputMode p s = _
      rw [execSetOutputMode, serve_serving hserve, ownSetOutputMode_of_choice hchoice]
      rfl
    refine ⟨⟨_, hexec⟩, fun hitem => ?_⟩
    rw [hexec, afterModeChange_of_no_wait (d := refresh { s.site with hostChoice := c } s.dev) hitem]
  case bad =>
    have hchoice : hostChoiceOf (byteAt r.body 0).toNat = none := by
      rw [hbody]
      exact hostChoiceOf_eq_none hbad
    change execSetOutputMode p s = _
    rw [execSetOutputMode, serve_serving hserve, ownSetOutputMode, hchoice]
    rfl

/-! ### Programmes (R134) -/

theorem cueSidTaken_iff (x : Site) (q : ProgNo) (g : ProgrammeSet) :
    cueSidTaken x q g = true ↔ g.enabled = true ∧ g.cueSid ≠ none
      ∧ ∃ o : ProgNo, o ≠ q ∧ (x.progs[o]).enabled = true ∧ (x.progs[o]).cueSid = g.cueSid := by
  simp [cueSidTaken, List.any_eq_true, and_assoc, Option.isSome_iff_ne_none]

theorem busy_iff (p : Programme) : p.busy = true ↔ p.active.isSome = true ∨ p.queue ≠ [] ∨ p.ended ≠ [] := by
  simp [Programme.busy, or_assoc]

/-- The pre-roll of a programme's settings is within its range. -/
theorem readProgramme_preroll {b : Bytes} {q : ProgNo} {g : ProgrammeSet} (h : readProgramme b = some (q, g)) :
    1 ≤ g.preroll ∧ g.preroll ≤ 250 := by
  simp only [readProgramme] at h
  split at h
  · split at h
    · split at h
      · cases h
        exact clampNat_range (by decide) _
      · exact absurd h nofun
    · exact absurd h nofun
  · exact absurd h nofun

/-- Settles O31: the checks in their order, and the settings written where none fails. -/
theorem programmeIsWritten : Obligations.ProgrammeIsWritten := by
  refine ⟨fun p r s hserve hread => ?unread, fun p r s q g hserve hread => ?_⟩
  case unread =>
    change execSetProgramme p s = _
    rw [execSetProgramme, serve_serving hserve, ownSetProgramme, hread]
    rfl
  intro taken busy
  have htaken : cueSidTaken s.site q g = true ↔ taken := cueSidTaken_iff s.site q g
  have hbusy : (s.site.phase = .running && (s.dev.splice.progs[q]).busy) = true ↔ busy := by simp [busy, busy_iff]
  refine ⟨(readProgramme_preroll hread).1, (readProgramme_preroll hread).2, fun hfree hidle => ?written, fun huse => ?used,
    fun hfree hrun => ?busy⟩
  all_goals
    change execSetProgramme p s = _
    rw [execSetProgramme, serve_serving hserve, ownSetProgramme, hread]
    dsimp only
  case written =>
    rw [if_neg (mt htaken.mp hfree), if_neg (mt hbusy.mp hidle)]
    split <;> rfl
  case used =>
    rw [if_pos (htaken.mpr huse)]
    rfl
  case busy =>
    rw [if_neg (mt htaken.mp hfree), if_pos (hbusy.mpr hrun)]
    rfl

end Sys2Proof.Machine
end

section
/-! PROOFS. The reads of lists and catalogue (R115, R116, R127, R183), and the arbiter (R97, R101). -/

namespace Sys2Proof.Machine

/-! ### The scan of the catalogue (R116) -/

/-- The record at a place, with the place. -/
def placeRecord (d : Device) (i : PlaceNo) : Option (PlaceNo × ClipRecord) := (d.cat.places[i]).map fun c => (i, c)

/-- The next place after a scan that ends at place `i` (R116). -/
def nextPlace (i : PlaceNo) : Nat := if i.val = 63 then 255 else i.val + 1

/-- What a scan of places for at most `m` records has found, and its next place. -/
structure ScanResult (d : Device) (places : List PlaceNo) (m : Nat) (found : List (PlaceNo × ClipRecord)) (next : Nat) : Prop where
  scan : scanPlaces d places m = (found.map fun x => clipSummary x.1 x.2, next)
  length : found.length ≤ m
  front : found <+: places.filterMap (placeRecord d)
  full : found.length = m → ∃ x, found.getLast? = some x ∧ next = nextPlace x.1
  short : found.length < m → found = places.filterMap (placeRecord d) ∧ next = 255

theorem scanPlaces_result (d : Device) (places : List PlaceNo) : ∀ {m : Nat}, 1 ≤ m → ∃ found next, ScanResult d places m found next := by
  induction places with
  | nil => exact fun {m} hm => ⟨[], 255, rfl, Nat.zero_le m, List.nil_prefix, fun h => absurd h (by simp; omega), fun _ => ⟨rfl, rfl⟩⟩
  | cons i rest ih =>
    intro m hm
    cases hrec : d.cat.places[i] with
    | none =>
      obtain ⟨found, next, hscan, hlength, hfront, hfull, hshort⟩ := ih hm
      have hskip : (i :: rest).filterMap (placeRecord d) = rest.filterMap (placeRecord d) :=
        List.filterMap_cons_none (by rw [placeRecord, hrec]; rfl)
      refine ⟨found, next, ?_, hlength, hskip ▸ hfront, hfull, hskip ▸ hshort⟩
      rw [scanPlaces, hrec]
      exact hscan
    | some c =>
      have htake : (i :: rest).filterMap (placeRecord d) = (i, c) :: rest.filterMap (placeRecord d) :=
        List.filterMap_cons_some (by rw [placeRecord, hrec]; rfl)
      by_cases hone : m ≤ 1
      · refine ⟨[(i, c)], nextPlace i, ?_, hm, ?_, fun _ => ⟨(i, c), rfl, rfl⟩, fun h => absurd h (by simp; omega)⟩
        · rw [scanPlaces, hrec]
          simp only [hone, if_true]
          rfl
        · rw [htake]
          exact List.prefix_cons_inj (i, c) |>.mpr List.nil_prefix
      · obtain ⟨found, next, hscan, hlength, hfront, hfull, hshort⟩ := ih (m := m - 1) (by omega)
        refine ⟨(i, c) :: found, next, ?_, Nat.add_le_of_le_sub hm hlength, ?_, fun h => ?_, fun h => ?_⟩
        · rw [scanPlaces, hrec]
          simp only [hone, if_false, hscan, List.map_cons]
        · rw [htake]
          exact (List.prefix_cons_inj (i, c)).mpr hfront
        · obtain ⟨x, hlast, hnext⟩ := hfull (Nat.eq_sub_of_add_eq h)
          exact ⟨x, by rw [List.getLast?_cons, hlast]; rfl, hnext⟩
        · obtain ⟨hall, hnext⟩ := hshort (Nat.lt_sub_of_add_lt h)
          exact ⟨by rw [htake, ← hall], hnext⟩

/-! ### The reads answered -/

theorem beNat_lt (b : Bytes) : beNat b < 256 ^ b.length := by
  induction b using List.reverseRecOn with
  | nil => decide
  | append_singleton b x ih =>
    have hx := x.isLt
    simp only [beNat, List.foldl_append, List.foldl_cons, List.foldl_nil, List.length_append, List.length_singleton, Nat.pow_succ] at ih ⊢
    omega

theorem fieldAt_lt (b : Bytes) (off len : Nat) : fieldAt b off len < 256 ^ len :=
  Nat.lt_of_lt_of_le (beNat_lt _) (Nat.pow_le_pow_right (by decide) (by simp))

/-- The clip id of a body is 0 only where its field is. -/
theorem bodyClip_ne_zero {b : Bytes} (h : fieldAt b 0 2 ≠ 0) : BitVec.ofNat 16 (fieldAt b 0 2) ≠ 0 := by
  have hlt := fieldAt_lt b 0 2
  intro heq
  have := congrArg BitVec.toNat heq
  simp at this
  omega

theorem ownListRead_of_body {r : Request} {l : ListNo} {skip m : Byte} (hbody : r.body = [BitVec.ofNat 8 l.val, skip, m])
    (hlo : 1 ≤ m.toNat) (hhi : m.toNat ≤ 128) (s : State) :
    ownListRead r s = ⟨s, .ok, BitVec.ofNat 8 l.val :: beBytes 2 s.dev.lists.rings[l].length
          ++ [(s.dev.lists.rings[l].head?).elim 255 (fun e => BitVec.ofNat 8 e.val)]
          ++ [BitVec.ofNat 8 ((s.dev.lists.rings[l].drop skip.toNat).take m.toNat).length]
          ++ ((s.dev.lists.rings[l].drop skip.toNat).take m.toNat).flatMap (listItem s.dev)⟩ := by
  have hlist : finOf 32 (BitVec.ofNat 8 l.val).toNat = some l := by
    have : (BitVec.ofNat 8 l.val).toNat = l.val := by simp; omega
    rw [this, finOf_val]
  have hbytes : byteAt r.body 0 = BitVec.ofNat 8 l.val ∧ byteAt r.body 1 = skip ∧ byteAt r.body 2 = m := by
    rw [hbody]
    exact ⟨rfl, rfl, rfl⟩
  obtain ⟨h0, h1, h2⟩ := hbytes
  have hcount : (decide (m.toNat = 0) || decide (m.toNat > 128)) = false := by simp; omega
  simp only [ownListRead, h0, h1, h2, hlist, hcount, Bool.false_eq_true, if_false, beBytes_one]
  cases s.dev.lists.rings[l] <;> rfl

theorem ownCatalogueRead_of_scan {r : Request} {start m : Byte} (hbody : r.body = [start, m]) (hstart : start.toNat ≤ 63)
    (hlo : 1 ≤ m.toNat) (hhi : m.toNat ≤ 32) {s : State} {found : List (PlaceNo × ClipRecord)} {next : Nat}
    (hscan : scanPlaces s.dev ((List.finRange 64).drop start.toNat) m.toNat = (found.map fun x => clipSummary x.1 x.2, next)) :
    ownCatalogueRead r s =
      ⟨s, .ok, BitVec.ofNat 8 found.length :: BitVec.ofNat 8 next :: found.flatMap (fun x => clipSummary x.1 x.2)⟩ := by
  have hbytes : byteAt r.body 0 = start ∧ byteAt r.body 1 = m := by
    rw [hbody]
    exact ⟨rfl, rfl⟩
  obtain ⟨h0, h1⟩ := hbytes
  have hfields : (decide (start.toNat > 63) || decide (m.toNat = 0) || decide (m.toNat > 32)) = false := by simp; omega
  simp only [ownCatalogueRead, h0, h1, hfields, Bool.false_eq_true, if_false, hscan, beBytes_one, List.length_map, List.flatMap_def]
  rfl

/-- Settles O18: each read's owner answers from the tables and leaves the state. -/
theorem listsAndCatalogueRead : Obligations.ListsAndCatalogueRead := by
  intro p r s
  refine ⟨fun l skip m hserve hbody hlo hhi => ?list, fun hserve => ⟨?queries, fun b hb => ?item⟩,
    fun i c hserve hid hfind hplace => ⟨?info, ?summary⟩, fun hserve hid hfind => ?unknown, fun start m hserve hbody hstart hlo hhi => ?scan⟩
  case list =>
    change execListRead p s = _
    rw [execListRead, serve_serving hserve, ownListRead_of_body hbody hlo hhi]
  case queries =>
    change execQueryList p s = _
    rw [execQueryList, serve_serving hserve, ownQueryList, beBytes_one]
    rfl
  case item =>
    simp only [queryItems, List.mem_flatMap, List.mem_map] at hb
    obtain ⟨q, -, c, -, rfl⟩ := hb
    simp [queryItem]
  case info =>
    change execClipInfo p s = _
    rw [execClipInfo, serve_serving hserve]
    simp only [ownClipInfo, if_neg (bodyClip_ne_zero hid), hfind, hplace]
  case summary => simp [clipSummary]
  case unknown =>
    change execClipInfo p s = _
    rw [execClipInfo, serve_serving hserve]
    simp only [ownClipInfo, if_neg (bodyClip_ne_zero hid), hfind]
    rfl
  case scan =>
    obtain ⟨found, next, hscan, hlength, hfront, hfull, hshort⟩ := scanPlaces_result s.dev ((List.finRange 64).drop start.toNat) hlo
    refine ⟨found, next, ?_, hlength, hfront, hfull, hshort⟩
    change execCatalogueRead p s = _
    rw [execCatalogueRead, serve_serving hserve, ownCatalogueRead_of_scan hbody hstart hlo hhi hscan]

/-! ### The arbiter's decision (R97) -/

/-- Requestor `g` goes before requestor `i`: a better effective priority, or the same one and an earlier place in the fixed order. -/
def Arbiter.Before (a : Arbiter) (g i : Fin 5) : Prop := a.effective[g] < a.effective[i] ∨ (a.effective[g] = a.effective[i] ∧ g < i)

theorem Arbiter.Before.trans {a : Arbiter} {g h i : Fin 5} (hgh : a.Before g h) (hhi : a.Before h i) : a.Before g i := by
  unfold Arbiter.Before at *
  omega

/-- One requestor compared with the best so far. -/
def Arbiter.better (a : Arbiter) (best : Option (Fin 5)) (i : Fin 5) : Option (Fin 5) :=
  if a.waiting[i].isSome then
    match best with
    | none => some i
    | some b => if a.effective[i] < a.effective[b] then some i else best
  else best

/-- The search along an ascending list, from a best that stands before all of it: what is found waits and goes before every other. -/
theorem Arbiter.foldl_better (a : Arbiter) : ∀ (l : List (Fin 5)) (best : Option (Fin 5)), l.Pairwise (· < ·) →
    (∀ b, best = some b → (a.waiting[b]).isSome = true ∧ ∀ i ∈ l, b < i) → ∀ g, l.foldl a.better best = some g →
    (a.waiting[g]).isSome = true ∧ (∀ b, best = some b → b ≠ g → a.Before g b)
      ∧ ∀ i ∈ l, (a.waiting[i]).isSome = true → i ≠ g → a.Before g i
  | [], best, _, hbest, g, hg => by
    have hg : best = some g := hg
    exact ⟨(hbest g hg).1, fun b hb hne => absurd (Option.some.inj (hb.symm.trans hg)) hne, nofun⟩
  | x :: l, best, hsorted, hbest, g, hg => by
    obtain ⟨hx, hsorted⟩ := List.pairwise_cons.mp hsorted
    by_cases hwait : (a.waiting[x]).isSome = true
    · cases best with
      | none =>
        have hstep : a.better none x = some x := if_pos hwait
        rw [List.foldl_cons, hstep] at hg
        obtain ⟨hgwait, hfirst, hrest⟩ := Arbiter.foldl_better a l (some x) hsorted (fun b hb => by cases hb; exact ⟨hwait, hx⟩) g hg
        refine ⟨hgwait, nofun, fun i hi hiwait hne => ?_⟩
        rcases List.mem_cons.mp hi with rfl | hi
        · exact hfirst i rfl hne
        · exact hrest i hi hiwait hne
      | some b =>
        obtain ⟨hbwait, hblt⟩ := hbest b rfl
        by_cases hlt : a.effective[x] < a.effective[b]
        · have hstep : a.better (some b) x = some x := by simp only [Arbiter.better, hwait, hlt, if_true]
          rw [List.foldl_cons, hstep] at hg
          obtain ⟨hgwait, hfirst, hrest⟩ := Arbiter.foldl_better a l (some x) hsorted (fun b hb => by cases hb; exact ⟨hwait, hx⟩) g hg
          have hxb : a.Before x b := .inl hlt
          refine ⟨hgwait, fun c hc hne => ?_, fun i hi hiwait hne => ?_⟩
          · cases hc
            by_cases hxg : x = g
            · exact hxg ▸ hxb
            · exact (hfirst x rfl hxg).trans hxb
          · rcases List.mem_cons.mp hi with rfl | hi
            · exact hfirst i rfl hne
            · exact hrest i hi hiwait hne
        · have hstep : a.better (some b) x = some b := by simp only [Arbiter.better, hwait, hlt, if_true, if_false]
          rw [List.foldl_cons, hstep] at hg
          obtain ⟨hgwait, hfirst, hrest⟩ := Arbiter.foldl_better a l (some b) hsorted
            (fun c hc => by cases hc; exact ⟨hbwait, fun i hi => hblt i (List.mem_cons_of_mem x hi)⟩) g hg
          have hbx : a.Before b x := by
            have := hblt x List.mem_cons_self
            unfold Arbiter.Before
            omega
          refine ⟨hgwait, hfirst, fun i hi hiwait hne => ?_⟩
          rcases List.mem_cons.mp hi with rfl | hi
          · by_cases hbg : b = g
            · exact hbg ▸ hbx
            · exact (hfirst b rfl hbg).trans hbx
          · exact hrest i hi hiwait hne
    · have hstep : a.better best x = best := if_neg hwait
      rw [List.foldl_cons, hstep] at hg
      obtain ⟨hgwait, hfirst, hrest⟩ := Arbiter.foldl_better a l best hsorted
        (fun b hb => ⟨(hbest b hb).1, fun i hi => (hbest b hb).2 i (List.mem_cons_of_mem x hi)⟩) g hg
      refine ⟨hgwait, hfirst, fun i hi hiwait hne => ?_⟩
      rcases List.mem_cons.mp hi with rfl | hi
      · exact absurd hiwait hwait
      · exact hrest i hi hiwait hne

/-- The requestor a decision grants waits and goes before every other that waits. -/
theorem Arbiter.choice_spec {a : Arbiter} {g : Fin 5} (h : a.choice = some g) :
    (a.waiting[g]).isSome = true ∧ ∀ i : Fin 5, (a.waiting[i]).isSome = true → i ≠ g → a.Before g i := by
  obtain ⟨hwait, -, hfirst⟩ := a.foldl_better (List.finRange 5) none (by decide) nofun g h
  exact ⟨hwait, fun i => hfirst i (List.mem_finRange i)⟩

/-- Entries of a list of indices without repetitions changed one after the other. -/
theorem foldl_vmodify_get {α : Type} {n : Nat} (f : α → α) : ∀ (l : List (Fin n)) (v : Vector α n), l.Nodup → ∀ i : Fin n,
    (l.foldl (fun e j => vmodify e j f) v)[i] = if i ∈ l then f v[i] else v[i]
  | [], v, _, i => by simp
  | j :: l, v, hnodup, i => by
    obtain ⟨hj, hnodup⟩ := List.nodup_cons.mp hnodup
    rw [List.foldl_cons, foldl_vmodify_get f l (vmodify v j f) hnodup i]
    by_cases hij : i = j
    · subst hij
      rw [if_neg hj, vmodify_get_self, if_pos List.mem_cons_self]
    · rw [vmodify_get_other v hij]
      simp [hij]

theorem mem_passedOver (a : Arbiter) (g i : Fin 5) : i ∈ a.passedOver g ↔ (a.waiting[i]).isSome = true ∧ i ≠ g := by
  simp [Arbiter.passedOver]

theorem Requestor.idx_ofIdx (g : Fin 5) : (Requestor.ofIdx g).idx = g := by
  revert g
  decide

/-- The priorities once every requestor passed over has improved by one. -/
theorem aged_get (a : Arbiter) (g i : Fin 5) :
    ((a.passedOver g).foldl (fun e j => vmodify e j (· - 1)) a.effective)[i]
      = if (a.waiting[i]).isSome = true ∧ i ≠ g then a.effective[i] - 1 else a.effective[i] := by
  have hnodup : (a.passedOver g).Nodup := (List.nodup_finRange 5).filter _
  rw [foldl_vmodify_get (· - 1) (a.passedOver g) a.effective hnodup i]
  simp only [mem_passedOver]

theorem decide_granted (a : Arbiter) (g : Fin 5) (t : Target) :
    (a.decide_ g t).effective[g] = a.initial[g] ∧ (a.decide_ g t).waiting[g] = none
      ∧ (a.decide_ g t).current = some ⟨Requestor.ofIdx g, t, true⟩ := by
  simp [Arbiter.decide_, Arbiter.begin_, Requestor.idx_ofIdx]

theorem decide_passedOver (a : Arbiter) {g i : Fin 5} (h : i ≠ g) (t : Target) :
    (a.decide_ g t).effective[i] = (if (a.waiting[i]).isSome then a.effective[i] - 1 else a.effective[i])
      ∧ (a.decide_ g t).waiting[i] = a.waiting[i] := by
  have hval : g.val ≠ i.val := fun heq => h (Fin.ext heq.symm)
  have haged := aged_get a g i
  simp only [h, ne_eq, not_false_eq_true, and_true] at haged
  simp only [Arbiter.decide_, Arbiter.begin_, Requestor.idx_ofIdx]
  exact ⟨by simpa [hval] using haged, by simp [hval]⟩

/-! ### SetArbiter (R101) -/

/-- The priorities of a SetArbiter body. -/
theorem readPriorities_bytes (a b c d e : Byte) :
    readPriorities [a, b, c, d, e] = #v[min a.toNat 7, min b.toNat 7, min c.toNat 7, min d.toNat 7, min e.toNat 7] := rfl

/-- A byte written from a lowered priority is the body's only where it was not lowered. -/
theorem ofNat_min_eq_iff (a : Byte) : BitVec.ofNat 8 (min a.toNat 7) = a ↔ a.toNat ≤ 7 := by
  revert a
  decide

/-- Settles O49: the search for the best waiting requestor, the aging of the others, and the five priorities of a body. -/
theorem arbiterDecidesAndIsSet : Obligations.ArbiterDecidesAndIsSet := by
  refine ⟨fun a g t hchoice => ?_, fun p r s a b c d e hserve hbody => ?_⟩
  · obtain ⟨hwait, hfirst⟩ := Arbiter.choice_spec hchoice
    obtain ⟨heff, hnone, hcurrent⟩ := decide_granted a g t
    exact ⟨hwait, hfirst, heff, hnone, fun i hne => decide_passedOver a hne t, hcurrent⟩
  · intro v low
    have hv : readPriorities r.body = v := by rw [hbody, readPriorities_bytes]
    have hwritten : writePriorities v = v.toList.map (BitVec.ofNat 8) := by
      simp [writePriorities, beBytes_one, v]
    have hlow : writePriorities v = r.body ↔ low := by
      rw [hwritten, hbody]
      simp only [v, low, Vector.toList_mk, List.map_cons, List.map_nil, List.cons.injEq, ofNat_min_eq_iff, and_true]
    change execSetArbiter p s = _
    rw [execSetArbiter, serve_serving hserve]
    simp only [ownSetArbiter, hv, hlow]
    split
    · rfl
    · rw [hwritten]
      rfl

end Sys2Proof.Machine
end

section
/-! PROOFS. Break lists edited (R104, R123 to R126) and clips opened, fed, deleted and aborted (R94, R104, R106 to R114). -/

namespace Sys2Proof.Machine

/-! ### Tables and records -/

theorem vector_set_get {α : Type} {n : Nat} {v : Vector α n} {i : Fin n} {a : α} (h : v[i] = a) : v.set i a = v := by
  subst h
  simp

/-- The lowest index of the one entry with a property, written into a table that had none. -/
theorem vfind_set_of_none {α : Type} {n : Nat} {v : Vector α n} {q : α → Bool} (hnone : vfind v q = none) (i : Fin n) {a : α}
    (ha : q a = true) : vfind (v.set i a) q = some i := by
  refine List.find?_eq_some_iff_getElem.mpr ⟨by simpa using ha, i.val, by simp, by simp, fun j hj => ?_⟩
  have hother := vfind_none hnone ⟨j, by omega⟩
  have hne : i.val ≠ j := by omega
  simpa [hne] using hother

/-- The record of a known clip. -/
theorem clipRecord_of_place {id : ClipId} {d : Device} {place : PlaceNo} {c : ClipRecord} (hfind : findClip id d = some place)
    (hplace : d.cat.places[place] = some c) : clipRecord id d = some c := by
  rw [clipRecord, hfind]
  exact hplace

theorem clipRecord_of_unknown {id : ClipId} {d : Device} (h : findClip id d = none) : clipRecord id d = none := by
  rw [clipRecord, h]

theorem updClip_of_place {id : ClipId} {d : Device} {place : PlaceNo} {c : ClipRecord} (hfind : findClip id d = some place)
    (hplace : d.cat.places[place] = some c) (f : ClipRecord → ClipRecord) : updClip id f d = setPlace place (some (f c)) d := by
  simp only [updClip, hfind, hplace]
  rfl

/-- Where a clip is found depends on the places alone. -/
theorem findClip_congr {id : ClipId} {d d' : Device} (h : d'.cat.places = d.cat.places) : findClip id d' = findClip id d := by
  rw [findClip, findClip, h]

/-- The id a clip is found by is the id of its record. -/
theorem findClip_id {id : ClipId} {d : Device} {place : PlaceNo} {c : ClipRecord} (hfind : findClip id d = some place)
    (hplace : d.cat.places[place] = some c) : c.id = id := by
  have := (vfind_some hfind).1
  rw [hplace] at this
  simpa using this

/-- The byte of an index below 256, read as a number. -/
theorem toFin_ofNat_val (e : Fin 256) : (BitVec.ofNat 8 e.val).toFin = e := by
  apply Fin.ext
  simp

/-! ### ListInsert (R123, R124) -/

/-- An entry put before another: behind the entries in front of it, and at the tail where it is the head. -/
theorem insertBefore_split {e b : EntryNo} {pre post : List EntryNo} (hpre : b ∉ pre) :
    insertBefore e b (pre ++ b :: post) = if pre = [] then pre ++ b :: post ++ [e] else pre ++ e :: b :: post := by
  cases pre with
  | nil => simp [insertBefore]
  | cons h t =>
    obtain ⟨hne, ht⟩ : b ≠ h ∧ b ∉ t := by simpa using hpre
    have htake : (t ++ b :: post).takeWhile (· != b) = t := by
      rw [List.takeWhile_append_of_pos fun x hx => by simpa using fun heq : x = b => ht (heq ▸ hx)]
      simp
    have hdrop : (t ++ b :: post).dropWhile (· != b) = b :: post := by
      rw [List.dropWhile_append_of_pos fun x hx => by simpa using fun heq : x = b => ht (heq ▸ hx)]
      simp
    simp only [insertBefore, List.cons_append, if_neg (Ne.symm hne), htake, hdrop]
    simp

/-- The device with a clip named by an entry more: the known record, or a new one, has its use count raised. -/
theorem raiseUse_insert {id : ClipId} {d : Device} {place : PlaceNo} {c : ClipRecord} (lists : BreakLists)
    (hclip : findClip id d = some place ∧ d.cat.places[place] = some c
      ∨ findClip id d = none ∧ vfind d.cat.places Option.isNone = some place ∧ c = ClipRecord.fresh id) :
    raiseUse id ((if (findClip id d).isSome then d else setPlace place (some (ClipRecord.fresh id)) d).setLists lists)
      = { d with
        lists := lists, cat := { d.cat with places := d.cat.places.set place (some { c with use := c.use + 1 }) } } := by
  rcases hclip with ⟨hfind, hplace⟩ | ⟨hfind, -, rfl⟩
  · simp only [hfind, Option.isSome_some, if_true]
    exact updClip_of_place (d := d.setLists lists) hfind hplace _
  · simp only [hfind, Option.isSome_none, Bool.false_eq_true, if_false]
    have hnew : findClip id ((setPlace place (some (ClipRecord.fresh id)) d).setLists lists) = some place :=
      vfind_set_of_none hfind place (by simp [ClipRecord.fresh])
    have hrec : ((setPlace place (some (ClipRecord.fresh id)) d).setLists lists).cat.places[place] = some (ClipRecord.fresh id) := by
      simp [setPlace]
    rw [raiseUse, updClip_of_place hnew hrec]
    simp [setPlace, Device.setLists, Device.setCat]

/-- The fields of a ListInsert body. -/
theorem listInsert_fields {b : Bytes} {l : ListNo} {pos : Byte} {before : EntryNo} {id : ClipId}
    (hbody : b = BitVec.ofNat 8 l.val :: pos :: BitVec.ofNat 8 before.val :: beBytes 2 id.toNat) :
    finOf 32 (byteAt b 0).toNat = some l ∧ byteAt b 1 = pos ∧ (byteAt b 2).toFin = before ∧ BitVec.ofNat 16 (fieldAt b 3 2) = id := by
  subst hbody
  refine ⟨?_, rfl, toFin_ofNat_val before, ?_⟩
  · have hval : (BitVec.ofNat 8 l.val).toNat = l.val := by
      simp
      omega
    change finOf 32 (BitVec.ofNat 8 l.val).toNat = some l
    rw [hval, finOf_val]
  · have hfield := fieldAt_append_beBytes [BitVec.ofNat 8 l.val, pos, BitVec.ofNat 8 before.val] 2 id.toNat
    have hmod : id.toNat % 256 ^ 2 = id.toNat := Nat.mod_eq_of_lt id.isLt
    rw [hmod] at hfield
    simp only [List.cons_append, List.nil_append, List.length_cons, List.length_nil] at hfield
    rw [hfield, BitVec.ofNat_toNat, BitVec.setWidth_eq]

/-- The place that a ListInsert finds or makes for its clip, and whether it is made. -/
theorem insert_place {id : ClipId} {d : Device} {place : PlaceNo} {c : ClipRecord} {made : Byte}
    (hclip : made = 0 ∧ findClip id d = some place ∧ d.cat.places[place] = some c
      ∨ made = 1 ∧ findClip id d = none ∧ vfind d.cat.places Option.isNone = some place ∧ c = ClipRecord.fresh id) :
    (findClip id d).or (vfind d.cat.places Option.isNone) = some place ∧ beBytes 1 (flagCode (findClip id d).isNone) = [made] := by
  rcases hclip with ⟨rfl, hfind, -⟩ | ⟨rfl, hfind, hfree, -⟩
  · simp [hfind, beBytes_one, flagCode]
  · simp [hfind, hfree, beBytes_one, flagCode]

/-- The owner of ListInsert, once its body and its checks are read. -/
theorem ownListInsert_of_fields {r : Request} {s : State} {l : ListNo} {pos : Byte} {before : EntryNo} {id : ClipId} {e : EntryNo}
    {place : PlaceNo} {c : ClipRecord} {made : Byte} {ring : List EntryNo} (hid : id ≠ 0)
    (hbody : r.body = BitVec.ofNat 8 l.val :: pos :: BitVec.ofNat 8 before.val :: beBytes 2 id.toNat)
    (hfree : vfind s.dev.lists.pool Option.isNone = some e)
    (hclip : made = 0 ∧ findClip id s.dev = some place ∧ s.dev.cat.places[place] = some c
      ∨ made = 1 ∧ findClip id s.dev = none ∧ vfind s.dev.cat.places Option.isNone = some place ∧ c = ClipRecord.fresh id)
    (hpos : pos = 1 ∨ pos = 2 ∧ (s.dev.lists.pool[before]).any (fun x => x.list == l) = true)
    (hring : ring = if pos.toNat = 2 then insertBefore e before s.dev.lists.rings[l] else s.dev.lists.rings[l] ++ [e]) :
    ownListInsert r s =
      ⟨s.setDev { s.dev with
          lists := { pool := s.dev.lists.pool.set e (some ⟨l, id, .idle, []⟩), rings := s.dev.lists.rings.set l ring }
          cat := { s.dev.cat with places := s.dev.cat.places.set place (some { c with use := c.use + 1 }) } },
        .ok, BitVec.ofNat 8 e.val :: beBytes 2 ring.length ++ [made]⟩ := by
  obtain ⟨hl, hp, hb, hi⟩ := listInsert_fields hbody
  obtain ⟨hplace, hmade⟩ := insert_place hclip
  have hposOk : (decide (pos.toNat ≠ 1) && decide (pos.toNat ≠ 2)) = false := by
    rcases hpos with rfl | ⟨rfl, -⟩ <;> rfl
  have hposFound : (decide (pos.toNat = 2) && !(s.dev.lists.pool[before]).any (fun x => x.list == l)) = false := by
    rcases hpos with rfl | ⟨rfl, hany⟩
    · rfl
    · rw [hany]
      rfl
  have hraise := raiseUse_insert (id := id) (d := s.dev) (place := place) (c := c)
    ⟨s.dev.lists.pool.set e (some ⟨l, id, .idle, []⟩), s.dev.lists.rings.set l ring⟩
    (hclip.imp (fun h => h.2) (fun h => h.2))
  have hlists : ∀ d : Device, d.lists = s.dev.lists → setEntry e (some ⟨l, id, .idle, []⟩) (setRing l ring d)
      = d.setLists ⟨s.dev.lists.pool.set e (some ⟨l, id, .idle, []⟩), s.dev.lists.rings.set l ring⟩ := by
    intro d hd
    simp [setEntry, setRing, Device.setLists, hd]
  simp only [ownListInsert, hl, hp, hb, hi, hposOk, hposFound, hid, hfree, hplace, hmade, decide_false, Bool.or_false, Bool.false_eq_true,
    if_false, ← hring]
  rw [hlists, hraise, beBytes_one]
  · rfl
  · split <;> rfl

/-! ### ListRemove (R125, R126) -/

theorem lowerUse_frame (id : ClipId) (d : Device) :
    lowerUse id d = d.setCat { d.cat with places := (lowerUse id d).cat.places } := by
  unfold lowerUse
  split <;> rfl

theorem lowerUse_of_place {id : ClipId} {d : Device} {place : PlaceNo} {c : ClipRecord} (hfind : findClip id d = some place)
    (hplace : d.cat.places[place] = some c) :
    lowerUse id d = setPlace place (if c.state = .absent ∧ c.use - 1 = 0 then none else some { c with use := c.use - 1 }) d := by
  simp [lowerUse, hfind, hplace, ClipRecord.keep]

/-- The device with an entry of a list unlinked and freed. -/
def Device.withoutEntry (d : Device) (e : EntryNo) (l : ListNo) : Device :=
  d.setLists ⟨d.lists.pool.set e none, d.lists.rings.set l (d.lists.rings[l].erase e)⟩

theorem unlinkEntry_of_entry {e : EntryNo} {d : Device} {x : RingEntry} (h : d.lists.pool[e] = some x) :
    unlinkEntry e d = lowerUse x.clip (d.withoutEntry e x.list) := by
  simp only [unlinkEntry, h]
  rfl

theorem removeReply_eq (l : ListNo) (d : Device) :
    removeReply l d = BitVec.ofNat 8 l.val :: beBytes 2 d.lists.rings[l].length ++ [if d.lists.rings[l].isEmpty then 1 else 0] := by
  cases h : d.lists.rings[l] <;> simp [removeReply, beBytes_one, h, flagCode]

/-- Settles O34: the insert links one entry and raises a use count; the remove's effect is that of the entry's state. -/
theorem listIsEdited : Obligations.ListIsEdited := by
  refine ⟨fun p r s l pos before id e place c made ring hserve hid hbody hfree hclip hpos => ?insert, fun p r s e x hserve hbody => ?_⟩
  case insert =>
    have hposFound : pos = 1 ∨ pos = 2 ∧ (s.dev.lists.pool[before]).any (fun x => x.list == l) = true := by
      rcases hpos with ⟨h, -⟩ | ⟨h, ⟨x, hx, hlist⟩, -⟩
      · exact .inl h
      · exact .inr ⟨h, by rw [hx]; simpa using hlist⟩
    have hring : ring = if pos.toNat = 2 then insertBefore e before s.dev.lists.rings[l] else s.dev.lists.rings[l] ++ [e] := by
      rcases hpos with ⟨rfl, h⟩ | ⟨rfl, -, pre, post, hsplit, hpre, h⟩
      · exact h
      · rw [h, hsplit]
        exact (insertBefore_split hpre).symm
    have hlength : ring.length = s.dev.lists.rings[l].length + 1 := by
      rcases hpos with ⟨-, h⟩ | ⟨-, -, pre, post, hsplit, -, h⟩
      · simp [h]
      · rw [h, hsplit]
        split <;> simp <;> omega
    change execListInsert p s = _
    rw [execListInsert, serve_serving hserve, ownListInsert_of_fields hid hbody hfree hclip hposFound hring, hlength]
  have he : (byteAt r.body 0).toFin = e := by
    rw [hbody]
    exact toFin_ofNat_val e
  have hexec : exec (.listRemove p) s
      = .next (sendReply p r (ownListRemove r s).status (ownListRemove r s).extra (ownListRemove r s).state) := serve_serving hserve
  rw [hexec]
  refine ⟨fun hentry => ?free, fun hentry hstate => ?idle, fun hentry hstate => ?held⟩
  case free =>
    simp only [ownListRemove, he, hentry]
    rfl
  case idle =>
    have hunlink := unlinkEntry_of_entry hentry
    have hframe := lowerUse_frame x.clip (s.dev.withoutEntry e x.list)
    rw [← hunlink] at hframe
    have hring : (s.dev.lists.rings.set x.list (s.dev.lists.rings[x.list].erase e))[x.list] = s.dev.lists.rings[x.list].erase e := by simp
    refine ⟨unlinkEntry e s.dev, removeReply x.list (unlinkEntry e s.dev), ?_, ?_, ?_, ?_, ?_, ?_, fun place c hfind hplace => ?_⟩
    · simp only [ownListRemove, he, hentry, hstate]
    · rw [hframe]
      rfl
    · rw [hframe]
      rfl
    · rw [removeReply_eq, hframe]
      simp only [Device.setCat_lists, Device.withoutEntry, Device.setLists_lists, hring]
    · rw [hframe]
      rfl
    · rw [hframe]
      rfl
    · rw [hunlink, lowerUse_of_place (d := s.dev.withoutEntry e x.list) hfind hplace]
      rfl
  case held =>
    cases hst : x.state with
    | idle => exact absurd hst hstate
    | inUse =>
      simp only [ownListRemove, he, hentry, hst, removeReply_eq]
      rfl
    | retiring =>
      have hsame : s.dev.lists.pool.set e (some { x with state := .retiring }) = s.dev.lists.pool := by
        refine vector_set_get ?_
        rw [hentry, ← hst]
      simp only [ownListRemove, he, hentry, hst, removeReply_eq]
      rw [hsame]
      rfl

/-! ### ClipOpen (R106, R107) -/

/-- Settles O35: no check of R106 fails, and the record is opened over the known ABSENT one or a new one. -/
theorem clipIsOpened : Obligations.ClipIsOpened := by
  intro p r s o place c hserve hread hsource hclip hroom hctx b
  have hstate : (clipRecord o.id s.dev).any (fun c => c.state != .absent) = false := by
    rcases hclip with ⟨hfind, old, hplace, -, hold⟩ | ⟨hfind, -⟩
    · simp [clipRecord_of_place hfind hplace, hold]
    · simp [clipRecord_of_unknown hfind]
  have hfree : (o.source != .link && (findSource o.source s.dev).isSome) = false := by
    by_cases hlink : o.source = .link
    · simp [hlink]
    · simp [hsource hlink]
  have hplace : (findClip o.id s.dev).or (vfind s.dev.cat.places Option.isNone) = some place := by
    rcases hclip with ⟨hfind, -⟩ | ⟨hfind, hnew⟩
    · simp [hfind]
    · simp [hfind, hnew]
  have hid : ((s.dev.cat.places[place]).getD (ClipRecord.fresh o.id)).id = o.id := by
    rcases hclip with ⟨-, old, hold, hid, -⟩ | ⟨-, hnew⟩
    · rw [hold]
      exact hid
    · have hnone : s.dev.cat.places[place] = none := by simpa using (vfind_some hnew).1
      rw [hnone]
      rfl
  have hblocks : ¬ s.dev.cat.freeList.length < blocksNeeded o.length := Nat.not_lt.mpr hroom
  refine ⟨{ (s.dev.cat.places[place]).getD (ClipRecord.fresh o.id) with
    state := .loading, length := o.length, digest := o.digest, blocks := s.dev.cat.freeList.take b
    loaded := 0, ignored := 0, damContinuity := false, damFifo := false, damDigest := false, ctx := some c },
    ?_, hid, rfl, rfl, rfl, rfl, rfl, rfl, rfl, rfl, rfl, rfl⟩
  change execClipOpen p s = _
  rw [execClipOpen, serve_serving hserve]
  simp only [ownClipOpen, hread, hstate, hfree, hplace, hblocks, hctx, Bool.false_eq_true, if_false, beBytes_one]
  rfl

/-! ### ClipData (R109, R111) -/

/-- The clip cells of a body are those it was put together from. -/
theorem clipCells_flatten : ∀ cells : List Bytes, (∀ cell ∈ cells, cell.length = 169) → clipCells cells.length cells.flatten = cells
  | [], _ => rfl
  | cell :: cells, h => by
    have hcell : cell.length = Config.clipCellBytes := h cell List.mem_cons_self
    rw [List.length_cons, List.flatten_cons, clipCells, List.take_left' hcell, List.drop_left' hcell,
      clipCells_flatten cells fun c hc => h c (List.mem_cons_of_mem cell hc)]

/-- Entries of the load FIFO for cells taken from position `start` on. -/
def loadEntries (k : CtxNo) (start : Nat) (cells : List Bytes) : List LoadEntry :=
  cells.zipIdx.map fun x => ⟨x.1, k, start + x.2, true⟩

theorem loadEntries_cons (k : CtxNo) (start : Nat) (cell : Bytes) (cells : List Bytes) :
    loadEntries k start (cell :: cells) = ⟨cell, k, start, true⟩ :: loadEntries k (start + 1) cells := by
  simp only [loadEntries, List.zipIdx_cons, List.map_cons, Nat.add_zero, List.cons.injEq, true_and]
  rw [List.zipIdx_succ, List.map_map]
  refine List.map_congr_left fun x _ => ?_
  simp only [Function.comp, LoadEntry.mk.injEq, true_and, and_true]
  omega

/-- Cells taken by a context one after the other. -/
theorem foldl_takeCell (k : CtxNo) : ∀ (cells : List Bytes) (d : Device) (y : LoadCtx), d.cat.ctxs[k] = some y →
    cells.foldl (fun d cell => takeCell k cell d) d
      = d.setCat { d.cat with
        ctxs := d.cat.ctxs.set k (some { y with accepted := y.accepted + cells.length })
        fifo := d.cat.fifo ++ loadEntries k y.accepted cells }
  | [], d, y, hy => by
    have hsame : d.cat.ctxs.set k (some { y with accepted := y.accepted + ([] : List Bytes).length }) = d.cat.ctxs := vector_set_get hy
    rw [hsame]
    simp [loadEntries, Device.setCat]
  | cell :: cells, d, y, hy => by
    have hstep : takeCell k cell d = d.setCat { d.cat with
        ctxs := d.cat.ctxs.set k (some { y with accepted := y.accepted + 1 })
        fifo := d.cat.fifo ++ [⟨cell, k, y.accepted, true⟩] } := by
      simp only [takeCell, hy]
    rw [List.foldl_cons, hstep, foldl_takeCell k cells _ { y with accepted := y.accepted + 1 } (by simp), loadEntries_cons]
    simp [Device.setCat, Nat.add_assoc, Nat.add_comm 1]

/-- The fields of a ClipData body, and the checks of its form. -/
theorem clipData_fields {b : Bytes} {id : ClipId} {cells : List Bytes} (hmax : cells.length ≤ 5)
    (hcells : ∀ cell ∈ cells, cell.length = 169 ∧ (byteAt cell 0).toNat ≤ 7)
    (hbody : b = beBytes 2 id.toNat ++ BitVec.ofNat 8 cells.length :: cells.flatten) :
    BitVec.ofNat 16 (fieldAt b 0 2) = id ∧ (byteAt b 2).toNat = cells.length ∧ clipCells cells.length (b.drop 3) = cells
      ∧ 3 + 169 * cells.length = b.length ∧ cells.any (fun c => decide (byteAt c 0 > 7)) = false := by
  subst hbody
  have hsum : cells.flatten.length = 169 * cells.length := by
    rw [List.length_flatten, List.sum_eq_card_nsmul (cells.map List.length) 169]
    · simp [Nat.mul_comm]
    · simp only [List.mem_map]
      rintro n ⟨cell, hcell, rfl⟩
      exact (hcells cell hcell).1
  refine ⟨?_, ?_, ?_, by simp [hsum]; omega, ?_⟩
  · have hfield := fieldAt_beBytes_between [] (BitVec.ofNat 8 cells.length :: cells.flatten) 2 id.toNat
    have hmod : id.toNat % 256 ^ 2 = id.toNat := Nat.mod_eq_of_lt id.isLt
    simp only [List.nil_append, List.length_nil, hmod] at hfield
    rw [hfield, BitVec.ofNat_toNat, BitVec.setWidth_eq]
  · change (BitVec.ofNat 8 cells.length).toNat = cells.length
    rw [BitVec.toNat_ofNat]
    omega
  · exact clipCells_flatten cells fun cell hcell => (hcells cell hcell).1
  · rw [List.any_eq_false]
    intro cell hcell
    have := (hcells cell hcell).2
    simpa [BitVec.lt_def] using this

/-- Settles O36: the room of the load FIFO decides, and the cells still wanted are taken in the order carried. -/
theorem clipCellsAreTaken : Obligations.ClipCellsAreTaken := by
  intro p r s id cells place c k y hserve hid hmin hmax hcells hbody hfind hplace hstate hctx hy hlink m
  obtain ⟨hbid, hcount, hbcells, hblen, hbad⟩ := clipData_fields hmax hcells hbody
  have hexec : exec (.clipData p) s
      = .next (sendReply p r (ownClipData r s).status (ownClipData r s).extra (ownClipData r s).state) := serve_serving hserve
  have hform : (decide (id = 0) || decide (3 + 169 * cells.length ≠ r.body.length) || cells.any (fun c => decide (byteAt c 0 > 7))) = false := by
    rw [hbad, hblen]
    simpa using hid
  have howner : ownClipData r s = if 32 - s.dev.cat.fifo.length < m then Answer.refuse s .busy else
      ⟨s.setDev (askLoad s.site (ignoreCells id (cells.length - m) ((cells.take m).foldl (fun d cell => takeCell k cell d) s.dev))), .ok,
        beBytes 1 m ++ beBytes 3 (y.accepted + m)⟩ := by
    simp only [ownClipData, hbid, hcount, hbcells, hform, clipRecord_of_place hfind hplace, hstate, hctx, hy, hlink, ne_eq,
      not_true_eq_false, Bool.false_eq_true, if_false]
    rfl
  rw [hexec, howner]
  refine ⟨fun hroom => ?taken, fun hpos hfull => ?busy⟩
  case taken =>
    have hlen : (cells.take m).length = m := by
      rw [List.length_take]
      exact Nat.min_eq_left (Nat.min_le_left _ _)
    have hignore : ∀ d : Device, d.cat.places = s.dev.cat.places → ignoreCells id (cells.length - m) d
        = d.setCat { d.cat with
          places := s.dev.cat.places.set place (some { c with ignored := min (c.ignored + (cells.length - m)) 16777215 }) } := by
      intro d hd
      rw [ignoreCells, updClip_of_place ((findClip_congr hd).trans hfind) (by rw [hd]; exact hplace), setPlace, hd]
      rfl
    rw [if_neg (by omega), foldl_takeCell k _ s.dev y hy, hlen, hignore, beBytes_one]
    · rfl
    · rfl
  case busy =>
    rw [if_pos (by omega)]
    rfl

/-! ### What counting and asking leave unchanged (R97, R102, R166) -/

/-- A counted event changes the counters, and with a wrap the latched conditions and the ports. -/
theorem bump_frame (x : Site) (hit : Counter → Nat) (d : Device) :
    bump x hit d = { d with
      counters := (bump x hit d).counters, latched := (bump x hit d).latched, net := (bump x hit d).net, maint := (bump x hit d).maint } := by
  unfold bump
  dsimp only
  split <;> rfl

/-- A request for a burst changes the arbiter and what the count of a grant changes. -/
theorem ask_frame (x : Site) (q : Requestor) (t : Target) (d : Device) :
    ask x q t d = { d with
      arb := (ask x q t d).arb, counters := (ask x q t d).counters, latched := (ask x q t d).latched, net := (ask x q t d).net
      maint := (ask x q t d).maint } := by
  unfold ask
  split
  · rfl
  · split
    · rw [countGrant, count_eq_bump, bump_frame]
      rfl
    · rfl

theorem askLoad_frame (x : Site) (d : Device) :
    askLoad x d = { d with
      arb := (askLoad x d).arb, counters := (askLoad x d).counters, latched := (askLoad x d).latched, net := (askLoad x d).net
      maint := (askLoad x d).maint } := by
  unfold askLoad
  split
  · rfl
  · split
    · rfl
    · split
      · rfl
      · split
        · split
          · exact ask_frame _ _ _ _
          · rfl
        · rfl

/-- A dead entry at the head asks for nothing: its context is free. -/
theorem askLoad_of_free_ctx {d : Device} {e : LoadEntry} {rest : List LoadEntry} (hfifo : d.cat.fifo = e :: rest)
    (hctx : d.cat.ctxs[e.ctx] = none) (x : Site) : askLoad x d = d := by
  simp only [askLoad, hfifo, hctx]

/-! ### ClipDelete and ClipAbort (R94, R104, R113, R114) -/

theorem exec_clipDelete (p : Port) (s : State) : exec (.clipDelete p) s = serve .clipDelete p ownClipDelete s := rfl

/-- The clip id of a two-byte body. -/
theorem bodyClip_eq {b : Bytes} {id : ClipId} (h : b = beBytes 2 id.toNat) : BitVec.ofNat 16 (fieldAt b 0 2) = id := by
  have hfield := fieldAt_append_beBytes [] 2 id.toNat
  have hmod : id.toNat % 256 ^ 2 = id.toNat := Nat.mod_eq_of_lt id.isLt
  simp only [List.nil_append, List.length_nil, hmod] at hfield
  rw [h, hfield, BitVec.ofNat_toNat, BitVec.setWidth_eq]

/-- A record that gives up its storage is kept ABSENT while entries name it. -/
theorem keep_toAbsent (c : ClipRecord) : c.toAbsent.keep = if c.use = 0 then none else some c.toAbsent := by
  simp [ClipRecord.keep, ClipRecord.toAbsent]

/-- The device once a clip has returned its blocks and its record is ABSENT or freed. -/
def Device.clipEnded (d : Device) (place : PlaceNo) (c : ClipRecord) : Device :=
  { d with
    cat := { d.cat with
      places := d.cat.places.set place (if c.use = 0 then none else some c.toAbsent), freeList := d.cat.freeList ++ c.blocks }
    arb := d.arb.cancel (fun t => t.blockOf.any (fun b => c.blocks.contains b)) }

theorem setPlace_returnBlocks (place : PlaceNo) (c : ClipRecord) (d : Device) :
    setPlace place (c.toAbsent).keep (returnBlocks c.blocks d) = d.clipEnded place c := by
  simp only [keep_toAbsent, setPlace, returnBlocks, Device.setCat, Device.setArb, Device.clipEnded]

/-- The owner of ClipDelete on a clip it knows. -/
theorem ownClipDelete_of_place {r : Request} {s : State} {id : ClipId} {place : PlaceNo} {c : ClipRecord}
    (hbody : r.body = beBytes 2 id.toNat) (hid : id ≠ 0) (hfind : findClip id s.dev = some place) (hplace : s.dev.cat.places[place] = some c) :
    ownClipDelete r s =
      if c.state = .loading ∨ c.state = .absent then .refuse s .wrongState
      else if 0 < c.play then .refuse s .inUse
      else ⟨s.setDev (s.dev.clipEnded place c), .ok, beBytes 1 (if c.use = 0 then 0 else 1)⟩ := by
  simp only [ownClipDelete, bodyClip_eq hbody, hid, if_false, hfind, hplace, Bool.or_eq_true, decide_eq_true_eq, setPlace_returnBlocks]

/-- The device once a LOADING record with a context has given up its storage. -/
theorem abortLoad_of_place {d : Device} {place : PlaceNo} {c : ClipRecord} {k : CtxNo} (hplace : d.cat.places[place] = some c)
    (hctx : c.ctx = some k) :
    abortLoad place d = { d with
      cat := {
        places := d.cat.places.set place (if c.use = 0 then none else some c.toAbsent)
        ctxs := d.cat.ctxs.set k none
        fifo := dropLoadEntries k (d.arb.current.any fun b => b.req == .load && b.keep) d.cat.fifo
        freeList := d.cat.freeList ++ c.blocks }
      arb := d.arb.cancel (fun t => t.blockOf.any (fun b => c.blocks.contains b)) } := by
  simp only [abortLoad, hplace, hctx, keep_toAbsent, setPlace, returnBlocks, Device.setCat, Device.setArb]

/-- Without a burst of its own in progress, a load's entries leave the load FIFO. -/
theorem dropLoadEntries_not_in_burst {k : CtxNo} {inBurst : Bool} {fifo : List LoadEntry}
    (h : inBurst = true → ∀ e, fifo.head? = some e → e.live = true → e.ctx ≠ k) :
    dropLoadEntries k inBurst fifo = fifo.filter fun e => !(e.live && e.ctx == k) := by
  cases fifo with
  | nil => rfl
  | cons e rest =>
    by_cases hmine : (e.live && e.ctx == k) = true
    · have hnot : inBurst = false := by
        by_contra hburst
        simp only [Bool.and_eq_true, beq_iff_eq] at hmine
        exact h (by simpa using hburst) e rfl hmine.1 hmine.2
      simp only [dropLoadEntries, List.filter_cons, hmine, hnot, Bool.not_true, Bool.false_eq_true, if_true, if_false]
    · rw [Bool.not_eq_true] at hmine
      simp only [dropLoadEntries, List.filter_cons, hmine, Bool.not_false, Bool.false_eq_true, if_true, if_false]

/-- A cancelled request's burst in progress is carried out without effect. -/
theorem cancel_current {a : Arbiter} {q : Target → Bool} {b : Burst} (hcurrent : a.current = some b) (hq : q b.target = true) :
    (a.cancel q).current = some { b with keep := false } := by
  have hdrop : ∀ (i : Fin 5) (a' : Arbiter), (if (a'.waiting[i]).any q then a'.withdraw (.ofIdx i) else a').current = a'.current := by
    intro i a'
    split
    · unfold Arbiter.withdraw
      split <;> rfl
    · rfl
  simp only [Arbiter.cancel, hdrop, hcurrent, Option.map_some, hq, if_true]

/-- Settles O37: the checks of ClipDelete in their order, and the abort with and without a burst of its own in progress. -/
theorem clipStorageIsReturned : Obligations.ClipStorageIsReturned := by
  refine ⟨?received, fun p r s id hserve hbody => ⟨fun hid => ?zero, fun hid hfind => ?unknown, fun place c hid hfind hplace =>
    ⟨fun hstate => ?state, fun hstate => ⟨fun hplay => ?playing, fun hplay => ?deleted⟩⟩⟩,
    fun p r s id place c k hserve hid hbody hfind hplace hstate hctx => ?_⟩
  case received =>
    exact Kind.received_of_serve (owner := fun _ => ownClipDelete) (fun _ => rfl) (fun _ => rfl) (fun ph _ => by cases ph <;> rfl)
      exec_clipDelete
  case zero =>
    rw [exec_clipDelete, serve_serving hserve]
    simp only [ownClipDelete, bodyClip_eq hbody, hid, if_true]
    rfl
  case unknown =>
    rw [exec_clipDelete, serve_serving hserve]
    simp only [ownClipDelete, bodyClip_eq hbody, hid, if_false, hfind]
    rfl
  case state =>
    rw [exec_clipDelete, serve_serving hserve, ownClipDelete_of_place hbody hid hfind hplace, if_pos hstate]
    rfl
  case playing =>
    have hother : ¬ (c.state = .loading ∨ c.state = .absent) := by rcases hstate with h | h <;> simp [h]
    rw [exec_clipDelete, serve_serving hserve, ownClipDelete_of_place hbody hid hfind hplace, if_neg hother, if_pos hplay]
    rfl
  case deleted =>
    have hother : ¬ (c.state = .loading ∨ c.state = .absent) := by rcases hstate with h | h <;> simp [h]
    refine ⟨s.dev.clipEnded place c, ?_, rfl, rfl, rfl, rfl, rfl⟩
    rw [exec_clipDelete, serve_serving hserve, ownClipDelete_of_place hbody hid hfind hplace, if_neg hother,
      if_neg (Nat.not_lt.mpr (Nat.le_of_eq hplay)), beBytes_one]
    dsimp only
    split <;> rfl
  have hexec : exec (.clipAbort p) s
      = .next (sendReply p r .ok (beBytes 3 (c.length - c.loaded)) (s.setDev (askLoad s.site (abortLoad place s.dev)))) := by
    change execClipAbort p s = _
    rw [execClipAbort, serve_serving hserve]
    simp only [ownClipAbort, bodyClip_eq hbody, hid, if_false, hfind, hplace, hstate, ne_eq, not_true_eq_false]
  have habort := abortLoad_of_place hplace hctx
  intro aborted
  refine ⟨fun hown => ⟨_, hexec, ?_⟩, fun b i cell e rest hcurrent hb hfifo hlive hmine => ⟨_, hexec, ?_, ?_⟩⟩
  · have hburst : (s.dev.arb.current.any fun b => b.req == .load && b.keep) = true →
        ∀ e, s.dev.cat.fifo.head? = some e → e.live = true → e.ctx ≠ k := by
      intro hany e he hlive
      cases hcurrent : s.dev.arb.current with
      | none =>
        rw [hcurrent] at hany
        exact absurd hany (by decide)
      | some b =>
        obtain ⟨q, t, keep⟩ := b
        rw [hcurrent] at hany
        simp only [Option.any_some, Bool.and_eq_true, beq_iff_eq] at hany
        obtain ⟨rfl, rfl⟩ := hany
        exact hown t e hcurrent he hlive
    rw [askLoad_frame, habort, dropLoadEntries_not_in_burst hburst]
    exact ⟨rfl, rfl, rfl, rfl, rfl, rfl, rfl, rfl, rfl⟩
  · rw [askLoad_frame, habort, hfifo]
    refine ⟨?_, rfl, rfl, rfl, rfl, rfl, rfl, rfl, rfl⟩
    simp [dropLoadEntries, hcurrent, hlive, hmine]
  · have hfifo' : (abortLoad place s.dev).cat.fifo
        = { e with live := false } :: rest.filter (fun e => !(e.live && e.ctx == k)) := by
      rw [habort, hfifo]
      simp [dropLoadEntries, hcurrent, hlive, hmine]
    have hfree : (abortLoad place s.dev).cat.ctxs[e.ctx] = none := by
      subst hmine
      rw [habort]
      simp
    rw [askLoad_of_free_ctx hfifo' hfree, habort]
    exact cancel_current hcurrent (by simpa [Target.blockOf] using hb)

end Sys2Proof.Machine
end

section
/-! PROOFS. The feeds and the selector: delineation, cell positions, the loss of SYNC, the opening of a frame, the taking of copies and the
end of a wait (R13 to R20, R31, R34 to R47), and the classes of admission (R68, R69). -/

namespace Sys2Proof.Machine

/-! ### Intakes -/

@[simp] theorem updIntake_setIntake (f : Feed) (g : Intake → Intake) (d : Device) (i : Intake) :
    updIntake f g (d.setIntake f i) = d.setIntake f (g i) := by
  simp [updIntake]

@[simp] theorem intake_bump (x : Site) (hit : Counter → Nat) (d : Device) (f : Feed) : (bump x hit d).intake f = d.intake f := by
  rw [bump_frame]
  cases f <;> rfl

@[simp] theorem intake_count (x : Site) (cls : CountClass) (sub : Nat) (d : Device) (f : Feed) :
    (count x cls sub d).intake f = d.intake f := intake_bump x _ d f

@[simp] theorem intake_refresh (x : Site) (d : Device) (f : Feed) : (refresh x d).intake f = d.intake f := by
  cases f <;> rfl

@[simp] theorem refresh_sel (x : Site) (d : Device) : (refresh x d).sel = d.sel := rfl
@[simp] theorem refresh_em (x : Site) (d : Device) : (refresh x d).em = d.em := rfl

/-- An intake that assembles no frame completes none. -/
theorem checkComplete_of_no_assembly {f : Feed} {d : Device} (h : (d.intake f).assembly = none) (x : Site) : checkComplete x f d = d := by
  simp only [checkComplete, h]

/-- A frame whose taking goes on does not complete. -/
theorem checkComplete_of_taking {f : Feed} {d : Device} {a : ArrivalFrame} {more : List ArrivalFrame}
    (harr : (d.intake f).arrivals = a :: more) (hended : a.ended = false) (x : Site) : checkComplete x f d = d := by
  unfold checkComplete
  dsimp only
  rw [harr]
  split
  · next fr _ _ heq =>
    cases heq
    split
    · simp [hended]
    · rfl
  · rfl

/-- The arrival frame of an intake that takes its only one. -/
theorem taking_of_single {i : Intake} {a : ArrivalFrame} (harr : i.arrivals = [a]) (hended : a.ended = false) : i.taking = some a := by
  simp [Intake.taking, harr, hended]

theorem taking_of_none {i : Intake} (harr : i.arrivals = []) : i.taking = none := by
  simp [Intake.taking, harr]

/-! ### Delineation (R13, R15) -/

theorem exec_feedDelineationByte_running {s : State} (hphase : s.site.phase = .running) (f : Feed) (b : Byte) :
    exec (.feedDelineationByte f b) s = .next (s.setDev (delineate s.site f s.dev b)) := by
  change execFeedDelineationByte f b s = _
  rw [execFeedDelineationByte, hphase]

theorem delineate_hunt {f : Feed} {d : Device} (h : (d.intake f).delin = .hunt) (x : Site) (b : Byte) :
    delineate x f d b = if b = 0xB8 then d.setIntake f { d.intake f with delin := .presync, since := 0, found := 1 } else d := by
  simp only [delineate, h]
  rfl

theorem delineate_presync {f : Feed} {d : Device} (h : (d.intake f).delin = .presync) (x : Site) (b : Byte) :
    delineate x f d b =
      if (d.intake f).since + 1 < 176 then d.setIntake f { d.intake f with since := (d.intake f).since + 1 }
      else if b = 0xB8 then
        if 3 ≤ (d.intake f).found + 1 then enterSync x f d
        else d.setIntake f { d.intake f with since := 0, found := (d.intake f).found + 1 }
      else d.setIntake f { d.intake f with delin := .hunt, since := 0, found := 0 } := by
  simp only [delineate, h]
  rfl

/-- Settles O41: the state of delineation and the place of the byte decide what the byte does. -/
theorem delineationFindsSync : Obligations.DelineationFindsSync := by
  intro f b s i
  refine ⟨fun hphase => ?held, fun hphase hdelin hb => ?start, fun hphase hdelin hb => ?passed, fun hphase hdelin hsince => ?counted,
    fun hphase hdelin hsince hb => ?lost, fun hphase hdelin hsince hb hfound => ?second, fun hphase hdelin hsince hb hfound => ?third⟩
  case held =>
    change execFeedDelineationByte f b s = _
    rw [execFeedDelineationByte, hphase]
  case start => rw [exec_feedDelineationByte_running hphase, delineate_hunt hdelin, if_pos hb]
  case passed =>
    rw [exec_feedDelineationByte_running hphase, delineate_hunt hdelin, if_neg hb]
    rfl
  all_goals rw [exec_feedDelineationByte_running hphase, delineate_presync hdelin]
  case counted => rw [if_pos hsince]
  all_goals
    have hlast : ¬ i.since + 1 < 176 := by omega
    rw [if_neg hlast]
  case lost => rw [if_neg hb]
  case second =>
    have hmore : ¬ 3 ≤ i.found + 1 := by omega
    rw [if_pos hb, if_neg hmore, hfound]
  case third =>
    have hdone : 3 ≤ i.found + 1 := by omega
    rw [if_pos hb, if_pos hdone]
    rfl

/-! ### Cell positions (R14, R16, R17) -/

/-- The intake once bytes of a position have been examined: the silence starts anew, and the first byte sets the count of misses. -/
def Intake.examined (i : Intake) (bytes : Bytes) : Intake :=
  { i with
    silence := 0
    misses := if i.cellSoFar ≠ [] then i.misses else missesAfter i.misses (byteAt bytes 0) }

/-- Bytes of a position that is not lost to the fourth miss join the cell that arrives. -/
theorem cellPosition_below_fourth {f : Feed} {bytes : Bytes} {d : Device}
    (hmiss : (d.intake f).cellSoFar = [] → ((d.intake f).examined bytes).misses < 4) (x : Site) :
    cellPosition x f bytes d = joinCell x f bytes (d.setIntake f ((d.intake f).examined bytes)) := by
  unfold cellPosition
  dsimp only
  by_cases hfirst : (d.intake f).cellSoFar = []
  · have hfew := hmiss hfirst
    simp only [Intake.examined, hfirst, ne_eq, not_true_eq_false, if_false] at hfew ⊢
    simp [updIntake, hfirst, hfew]
  · simp [updIntake, Intake.examined, hfirst]

theorem exec_feedCellPosition_below_fourth {f : Feed} {bytes : Bytes} {s : State} (hphase : s.site.phase = .running)
    (hsync : (s.dev.intake f).delin = .sync) (hbytes : bytes ≠ [])
    (hmiss : (s.dev.intake f).cellSoFar = [] → ((s.dev.intake f).examined bytes).misses < 4)
    (hlen : ((s.dev.intake f).cellSoFar ++ bytes).length ≤ 176) :
    exec (.feedCellPosition f bytes) s
      = .next (s.setDev (joinCell s.site f bytes (s.dev.setIntake f ((s.dev.intake f).examined bytes)))) := by
  rw [List.length_append] at hlen
  have hpos : 1 ≤ bytes.length := List.length_pos_iff.mpr hbytes
  have hsmall : bytes.length ≤ 176 := by omega
  change execFeedCellPosition f bytes s = _
  rw [execFeedCellPosition, if_pos, cellPosition_below_fourth hmiss]
  simp [hphase, Intake.inSync, hsync, Instr.cellSized, Config.cellBytes, hpos, hsmall, hlen]

theorem joinCell_partial {f : Feed} {bytes : Bytes} {d : Device} {i : Intake} (hlen : (i.cellSoFar ++ bytes).length < 176) (x : Site) :
    joinCell x f bytes (d.setIntake f i) = d.setIntake f { i with cellSoFar := i.cellSoFar ++ bytes } := by
  unfold joinCell
  simp only [Device.intake_setIntake, updIntake_setIntake]
  exact if_pos hlen

theorem joinCell_whole {f : Feed} {bytes : Bytes} {d : Device} {i : Intake} (hlen : (i.cellSoFar ++ bytes).length = 176) (x : Site) :
    joinCell x f bytes (d.setIntake f i) = endPosition x f (i.cellSoFar ++ bytes) (d.setIntake f { i with cellSoFar := [] }) := by
  have hnot : ¬ (i.cellSoFar ++ bytes).length < Config.cellBytes := by
    rw [hlen]
    decide
  unfold joinCell
  simp only [Device.intake_setIntake, updIntake_setIntake]
  exact if_neg hnot

theorem endPosition_dropped {cell : Bytes} (h : byteAt cell 0 ≠ 0xB8 ∨ headerValid cell = false) (x : Site) (f : Feed) (d : Device) :
    endPosition x f cell d = count x .cellDrop 0 d := by
  unfold endPosition
  split
  · next hsync =>
    rcases h with h | h
    · exact absurd hsync h
    · simp [arriveCell, h, countDrop]
  · rfl

theorem endPosition_marker {cell : Bytes} (hsync : byteAt cell 0 = 0xB8) (hvalid : headerValid cell = true)
    (hsid : (parseHeader cell).sid = 4095#12) (hgood : markerBad (parseMarker cell) = false) (x : Site) (f : Feed) (d : Device) :
    endPosition x f cell d = arriveMarker x f cell d := by
  simp [endPosition, Config.syncByte, hsync, arriveCell, hvalid, Config.markerSid, hsid, hgood]

theorem endPosition_data {cell : Bytes} (hsync : byteAt cell 0 = 0xB8) (hvalid : headerValid cell = true)
    (hsid : (parseHeader cell).sid ≠ 4095#12) (x : Site) (f : Feed) (d : Device) :
    endPosition x f cell d = arriveData x f cell d := by
  simp [endPosition, Config.syncByte, hsync, arriveCell, hvalid, Config.markerSid, hsid]

/-- Settles O42: the position goes on, or ends in what its cell is judged to be. -/
theorem cellPositionIsJudged : Obligations.CellPositionIsJudged := by
  intro f bytes s hphase hsync hbytes hasm i cell misses hmiss
  have hexec := fun hlen => exec_feedCellPosition_below_fourth (bytes := bytes) hphase hsync hbytes hmiss hlen
  have hwhole : cell.length = 176 → exec (.feedCellPosition f bytes) s = .next (s.setDev (endPosition s.site f cell
      (s.dev.setIntake f { i with misses := misses, silence := 0, cellSoFar := [] }))) := by
    intro hlen
    rw [hexec (Nat.le_of_eq hlen), joinCell_whole (i := i.examined bytes) hlen]
    rfl
  refine ⟨fun hlen => ?goes, fun hlen hbad => ?dropped, fun hlen hb hvalid hsid hgood hroom harr => ?marker,
    fun a hlen hb hvalid hsid harr hended hroom => ?joins, fun a hlen hb hvalid hsid harr hended hfull => ?overrun,
    fun hlen hb hvalid hsid harr => ?stray⟩
  case goes =>
    rw [hexec (Nat.le_of_lt hlen), joinCell_partial (i := i.examined bytes) hlen]
    rfl
  case dropped => rw [hwhole hlen, endPosition_dropped hbad]
  case marker =>
    have hfull : ¬ Config.intakeFifoSize ≤ i.fifo.length := Nat.not_le.mpr hroom
    rw [hwhole hlen, endPosition_marker hb hvalid hsid hgood]
    simp only [arriveMarker, Device.intake_setIntake, hfull, if_false, Device.setIntake_setIntake]
    rw [checkComplete_of_no_assembly (by simpa using hasm)]
    simp [harr, updLast]
  all_goals rw [hwhole hlen, endPosition_data hb hvalid hsid]
  case joins =>
    have hfull : ¬ Config.intakeFifoSize ≤ i.fifo.length := Nat.not_le.mpr hroom
    have htaking : Intake.taking { i with misses := misses, silence := 0, cellSoFar := [] } = some a := taking_of_single harr hended
    simp only [arriveData, Device.intake_setIntake, htaking, hfull, if_false, Device.setIntake_setIntake]
    simp [harr, updLast, hended]
  case overrun =>
    have hfull' : Config.intakeFifoSize ≤ i.fifo.length := hfull
    have htaking : Intake.taking { i with misses := misses, silence := 0, cellSoFar := [] } = some a := taking_of_single harr hended
    simp only [arriveData, Device.intake_setIntake, htaking, hfull', if_true, Device.setIntake_setIntake, countDrop]
    rw [checkComplete_of_no_assembly (by simpa using hasm)]
    simp [harr, updLast, hended]
  case stray =>
    have htaking : Intake.taking { i with misses := misses, silence := 0, cellSoFar := [] } = none := taking_of_none harr
    simp only [arriveData, Device.intake_setIntake, htaking, countDrop]

/-! ### The loss of SYNC (R14, R31) -/

theorem decideHeld_of_none {d : Device} (h : ∀ e ∈ d.sel.table, e.held = none) (x : Site) : decideHeld x d = d := by
  have hnone : d.sel.table.filter (fun e => e.held.isSome) = [] := by
    rw [List.filter_eq_nil_iff]
    intro e he
    simp [h e he]
  rw [decideHeld, hnone]
  rfl

/-- The loss of SYNC of an intake that assembles no frame, with no held copy and no item in service. -/
theorem leaveSync_quiet {f : Feed} {d : Device} (hasm : (d.intake f).assembly = none) (hheld : ∀ e ∈ d.sel.table, e.held = none)
    (hitem : d.em.item = none) (x : Site) :
    leaveSync x f d = refresh x (d.setIntake f
      { d.intake f with
        delin := .hunt, since := 0, found := 0, misses := 0, silence := 0, cellSoFar := []
        arrivals := if (d.intake f).taking.isSome then
            updLast (fun a => { a with ended := true, syncLoss := true }) (d.intake f).arrivals
          else (d.intake f).arrivals }) := by
  unfold leaveSync
  dsimp only
  rw [checkComplete_of_no_assembly (by simpa [updIntake] using hasm)]
  unfold selectorSyncLoss
  rw [decideHeld_of_none (by simpa [updIntake] using hheld), ite_self, afterModeChange_of_no_wait (by simp [updIntake, hitem])]
  rfl

/-- Settles O43: both ways lead to the same loss of SYNC. -/
theorem silenceLosesSync : Obligations.SilenceLosesSync := by
  intro f c s hsync hasm hcause hheld hitem i
  have hlost : ∃ k, exec c s = .next (s.setDev (leaveSync s.site f (s.dev.setIntake f { i with silence := k }))) := by
    rcases hcause with ⟨rfl, hsilence⟩ | ⟨b, rfl, hb, hphase, hfirst, hmisses⟩
    · refine ⟨i.silence, ?_⟩
      have hlong : Config.feedSilenceTicks ≤ (s.dev.intake f).silence := hsilence
      change execFeedSilence f s = _
      rw [execFeedSilence, if_pos (by simp [Intake.inSync, hsync, hlong])]
      exact congrArg (fun d => Host.Outcome.next (s.setDev (leaveSync s.site f d))) (Device.setIntake_intake ..).symm
    · refine ⟨0, ?_⟩
      change execFeedCellPosition f [b] s = _
      rw [execFeedCellPosition, if_pos (by simp [hphase, Intake.inSync, hsync, Instr.cellSized, Config.cellBytes, hfirst])]
      have hfourth : ¬ missesAfter (s.dev.intake f).misses (byteAt [b] 0) < 4 := by
        have hbyte : byteAt [b] 0 = b := rfl
        have hnot : b ≠ Config.syncByte := hb
        rw [hbyte, missesAfter, if_neg hnot, hmisses]
        decide
      simp [cellPosition, updIntake, hfirst, hfourth, i]
  obtain ⟨k, hlost⟩ := hlost
  rw [hlost, leaveSync_quiet (by simpa using hasm) (by simpa using hheld) (by simpa using hitem)]
  simp only [Device.intake_setIntake, Device.setIntake_setIntake]
  refine ⟨fun a harr hended => ?_, fun harr => ?_⟩
  · have htaking : Intake.taking { i with silence := k } = some a := taking_of_single harr hended
    rw [htaking]
    simp [harr, updLast]
  · have htaking : Intake.taking { i with silence := k } = none := taking_of_none harr
    rw [htaking]
    simp [harr]

/-! ### The opening of a frame (R18 to R20, R88) -/

/-- The search for the lowest index with a property ends at an index that has it when no lower one does. -/
theorem vfind_eq_some {α : Type} {n : Nat} {v : Vector α n} {q : α → Bool} {i : Fin n} (hi : q v[i] = true)
    (hbefore : ∀ j < i, q v[j] = false) : vfind v q = some i :=
  List.find?_eq_some_iff_getElem.mpr ⟨hi, i.val, by simp, by simp, fun j hj => by simpa using hbefore ⟨j, by omega⟩ hj⟩

theorem vfind_eq_none {α : Type} {n : Nat} {v : Vector α n} {q : α → Bool} (h : ∀ i : Fin n, q v[i] = false) : vfind v q = none :=
  List.find?_eq_none.mpr fun i _ => by simpa using h i

/-- A marker at the head of an intake that assembles no frame opens one. -/
theorem exec_intakeMarkerAtHead_opens {f : Feed} {cell : Bytes} {rest : List FifoEntry} {s : State}
    (hfifo : (s.dev.intake f).fifo = .marker cell :: rest) (hasm : (s.dev.intake f).assembly = none) :
    exec (.intakeMarkerAtHead f) s = .next (s.setDev (openFrame s.site f cell s.dev)) := by
  change execIntakeMarkerAtHead f s = _
  simp only [execIntakeMarkerAtHead, hfifo, closeAssembly, hasm]

/-- Settles O44: the lowest FREE slot, or none, goes into the assembly context with the snapshots. -/
theorem markerOpensFrame : Obligations.MarkerOpensFrame := by
  intro f cell rest a more s hfifo hasm harr hended i opened
  rw [exec_intakeMarkerAtHead_opens hfifo hasm]
  refine ⟨fun slot hfree hbefore => ?_, fun hbusy => ?_⟩
  · have hslot : freeSlotNo s.dev = some slot := vfind_eq_some (by simpa using hfree) (fun j hj => by simpa using hbefore j hj)
    simp only [openFrame, hslot]
    rw [checkComplete_of_taking (a := a) (more := more) (by simpa [updIntake] using harr) hended]
    simp only [updIntake, Device.intake_updSlot, hfifo, List.drop_succ_cons, List.drop_zero, opened, i]
    rfl
  · have hslot : freeSlotNo s.dev = none := vfind_eq_none (fun j => by simpa using hbusy j)
    simp only [openFrame, hslot]
    rw [checkComplete_of_taking (a := a) (more := more) (by simpa [updIntake] using harr) hended]
    simp only [updIntake, hfifo, List.drop_succ_cons, List.drop_zero, opened, i]

/-! ### Copies (R34 to R44, R47) -/

/-- A number decided, written out. -/
theorem decideNumber_eq (n : FrameNo) (d : Device) :
    decideNumber n d = { d with sel :=
      ⟨(if d.sel.decided.length < 16 then d.sel.decided else d.sel.decided.drop 1) ++ [n], d.sel.table.filter (fun e => e.number != n)⟩ } := by
  have hpush : pushDecided n d.sel.decided = (if d.sel.decided.length < 16 then d.sel.decided else d.sel.decided.drop 1) ++ [n] := by
    unfold pushDecided
    by_cases h : d.sel.decided.length < 16
    · have hroom : ¬ Config.decidedSize ≤ d.sel.decided.length := Nat.not_le.mpr h
      rw [if_pos h, if_neg hroom]
    · have hfull : Config.decidedSize ≤ d.sel.decided.length := Nat.not_lt.mp h
      rw [if_neg h, if_pos hfull]
  rw [decideNumber, hpush]
  rfl

/-- A number without an entry leaves the table as it is. -/
theorem filter_of_no_entry {n : FrameNo} {table : List PairEntry} (h : table.find? (fun e => e.number == n) = none) :
    table.filter (fun e => e.number != n) = table := by
  rw [List.filter_eq_self]
  intro e he
  simpa using List.find?_eq_none.mp h e he

/-- Settles O47: the decided list, the verdict, the mode and the entry of the number lead to each case. -/
theorem copyIsTaken : Obligations.CopyIsTaken := by
  intro x f slot valid d n decided
  refine ⟨fun hdecided => ?duplicate, fun hnew hvalid hfirst hentry => ?chosen, fun e hnew hvalid hentry hheld hseen => ?missing,
    fun w hnew hvalid hmode hfeed hsync hentry hroom hpos hwait => ?held⟩
  case duplicate =>
    have hcontains : d.sel.decided.contains n = true := by simpa using hdecided
    simp only [takeCopy]
    rw [if_pos hcontains]
    rfl
  all_goals
    have hcontains : d.sel.decided.contains n = false := by simpa using hnew
    simp only [takeCopy]
    rw [if_neg (by rw [hcontains]; decide)]
  case chosen =>
    have honce : takeAtOnce x n slot d = handOver x slot { d with sel := ⟨decided, d.sel.table⟩ } := by
      simp only [takeAtOnce, findEntry, hentry, Option.bind_none, chooseCopy]
      rw [decideNumber_eq, filter_of_no_entry hentry]
    rw [hvalid]
    rcases hfirst with hmode | rfl
    · rw [hmode]
      exact honce
    · cases x.selMode <;> exact honce
  case missing =>
    have hother : e.damagedSeen (otherFeed f) = true := by
      cases f <;> exact hseen
    have hentry' : findEntry n (freeSlot slot d) = some e := hentry
    rw [hvalid]
    change takeDamaged x n f (freeSlot slot d) = _
    simp only [takeDamaged, hentry', hheld, hother, if_true, declareMissing]
    rw [decideNumber_eq]
    rfl
  case held =>
    have hentry' : findEntry n d = none := hentry
    have hin : d.intakeA.inSync = true := by simp [Intake.inSync, hsync]
    have hheldWait : heldWait x d.slots[slot] = w := hwait.symm
    have hlong : ¬ (w : Int) ≤ 0 := by omega
    have hspace : makeRoom x (setSlotState slot .pending d) = setSlotState slot .pending d := by
      have hsmall : ¬ Config.pairingSize ≤ d.sel.table.length := Nat.not_le.mpr hroom
      unfold makeRoom
      split
      · rfl
      · exact if_neg hsmall
    rw [hvalid, hmode, hfeed]
    change takeSecondary x n slot d = _
    simp only [takeSecondary, hin, Bool.not_true, Bool.false_eq_true, if_false, hentry', holdCopy, hheldWait, hlong, createEntry, hspace,
      Int.toNat_natCast]
    rfl

/-- Settles O48: an entry whose wait has ended is decided by its held copy. -/
theorem waitEndDecides : Obligations.WaitEndDecides := by
  intro n e s hentry l decided
  have hnumber : e.number = n := by simpa using List.find?_some hentry
  have hfind : findEntry n s.dev = some e := hentry
  have hdecide : decideNumber e.number s.dev = decided := by rw [hnumber, decideNumber_eq]
  have hexec : exec (.pairingWaitEnd n) s = if e.wait = 0 then .next (s.setDev (endWait s.site e s.dev)) else .next s := by
    change execPairingWaitEnd n s = _
    simp only [execPairingWaitEnd, hfind]
  rw [hexec]
  refine ⟨fun hrun => ?runs, fun hover hheld => ?missing, fun slot f hover hheld => ?held⟩
  case runs => exact if_neg (by omega)
  case missing =>
    rw [if_pos hover]
    simp only [endWait, hheld, declareMissing, hdecide]
  case held =>
    rw [if_pos hover]
    simp only [endWait, hheld, chooseCopy, hdecide]

/-! ### The classes of admission (R68, R69) -/

/-- A stamp's second lies in the window of 256 seconds around the site second. -/
theorem stampSeconds_window {s8 : Nat} (h : s8 < 256) (s : Nat) :
    -128 ≤ stampSeconds s s8 - s ∧ stampSeconds s s8 - s ≤ 127 ∧ (stampSeconds s s8 - s8) % 256 = 0 := by
  unfold stampSeconds
  dsimp only
  split <;> omega

theorem classify_strict {x : Site} (hmode : x.timing.mode = .sfnStrict) (d : Device) (n : FrameNo) (stamp : Byte × Nat) :
    classify x d n stamp =
      if !x.tb.trusted then .noTime
      else if x.timing.horizon < leadOf x.tb (stampDue x stamp) then .early
      else if leadOf x.tb (stampDue x stamp) < x.timing.guard then .late
      else orderTest d n (stampDue x stamp) := by
  simp only [classify, hmode]

/-- Settles O53: the window of the stamp, and the checks of admission in their order. -/
theorem admissionClasses : Obligations.AdmissionClasses := by
  refine ⟨fun s s8 h => stampSeconds_window h s, fun x d n stamp hmode => ?_⟩
  intro lead
  rw [classify_strict hmode]
  refine ⟨fun htrust => ?noTime, fun htrust => ⟨fun hearly => ?early, fun hsoon hlate => ?late, fun hsoon hguard =>
    ⟨fun horder => ?order, fun horder => ?admitted⟩⟩⟩
  case noTime => simp [htrust]
  all_goals rw [htrust, if_neg (by decide)]
  case early => exact if_pos hearly
  all_goals rw [if_neg (Int.not_lt.mpr hsoon)]
  case late => exact if_pos hlate
  all_goals rw [if_neg (Int.not_lt.mpr hguard), orderTest, horder]
  case order => rfl
  case admitted => rfl

end Sys2Proof.Machine
end

section
/-! PROOFS. The site timebase: good pulses, missing pulses, loss and return of the reference, and second boundaries (R49 to R58). -/

namespace Sys2Proof.Machine

/-! ### Events without step or change of trust -/

/-- An event without step or change of trust sets the timebase, and the conditions follow. -/
theorem applyEvent_quiet (tb : Timebase) (s : State) :
    applyEvent (.quiet tb) s = (s.setTb tb).setDev (refresh { s.site with tb := tb } s.dev) := rfl

/-- Alignment and boundary leave the state of discipline, other than HOLDOVER, as it is. -/
theorem boundary_of_not_holdover {tb : Timebase} (h : tb.disc ≠ .holdover) : boundary tb = .quiet tb := if_neg h

theorem boundary_below_limit {tb : Timebase} (h : tb.disc = .holdover) (hlimit : tb.holdover + 1 < tb.holdoverLimit) :
    boundary tb = .quiet { tb with holdover := tb.holdover + 1 } := by
  rw [boundary, if_pos h, if_neg (Nat.not_le.mpr hlimit)]

theorem boundary_at_limit {tb : Timebase} (h : tb.disc = .holdover) (hlimit : tb.holdoverLimit ≤ tb.holdover + 1) :
    boundary tb = ⟨{ tb with disc := .expired, holdover := 0 }, none, .lost⟩ := by
  rw [boundary, if_pos h, if_pos hlimit]

/-! ### Alignment (R51, R52) -/

/-- The seconds count that an alignment without a label gives. -/
def Timebase.nearestSecs (tb : Timebase) : BitVec 32 := if tb.ticks < 5000000 then tb.secs else tb.secs + 1

/-- The round of the seconds count after an alignment without a label. -/
def Timebase.nearestEra (tb : Timebase) : Nat :=
  if tb.ticks < 5000000 then tb.era else if tb.secs = 0xFFFFFFFF then tb.era + 1 else tb.era

theorem phaseError_nonneg_iff {t : Nat} (h : t < 10000000) : 0 ≤ phaseError t ↔ t < 5000000 := by
  unfold phaseError
  split <;> omega

/-- Alignment on a pulse read at the timebase's ticks. -/
theorem align_eq {tb : Timebase} {t : Nat} (h : t < 10000000) (hticks : tb.ticks = t) :
    tb.align (phaseError t) = { tb with secs := tb.nearestSecs, ticks := 0, era := tb.nearestEra } := by
  subst hticks
  unfold Timebase.align Timebase.nearestSecs Timebase.nearestEra Timebase.nextSecond
  by_cases hlow : tb.ticks < 5000000
  · rw [if_pos ((phaseError_nonneg_iff h).mpr hlow), if_pos hlow, if_pos hlow]
  · rw [if_neg (mt (phaseError_nonneg_iff h).mp hlow), if_neg hlow, if_neg hlow]

/-- A plain alignment outside HOLDOVER. -/
theorem plainAlign_of_not_holdover {tb : Timebase} {t : Nat} (h : t < 10000000) (hticks : tb.ticks = t) (hdisc : tb.disc ≠ .holdover) :
    plainAlign tb (phaseError t) = .quiet { tb with secs := tb.nearestSecs, ticks := 0, era := tb.nearestEra } := by
  unfold plainAlign
  rw [align_eq h hticks]
  split
  · rfl
  · exact boundary_of_not_holdover hdisc

theorem plainAlign_without_boundary {tb : Timebase} {t : Nat} (hticks : tb.ticks = t) (hlow : t < 5000000) :
    plainAlign tb (phaseError t) = .quiet { tb with secs := tb.nearestSecs, ticks := 0, era := tb.nearestEra } := by
  rw [plainAlign, if_pos ((phaseError_nonneg_iff (by omega)).mpr hlow), align_eq (by omega) hticks]

theorem plainAlign_with_boundary {tb : Timebase} {t : Nat} (h : t < 10000000) (hticks : tb.ticks = t) (hhigh : 5000000 ≤ t) :
    plainAlign tb (phaseError t) = boundary { tb with secs := tb.nearestSecs, ticks := 0, era := tb.nearestEra } := by
  rw [plainAlign, if_neg (by rw [phaseError_nonneg_iff h]; omega), align_eq h hticks]

/-! ### The reference pulse (R51, R54 to R58) -/

theorem goodPulse_iff {t w : Nat} (h : t < 10000000) :
    (phaseError t).natAbs ≤ w ↔ t ≤ w ∧ t < 5000000 ∨ 5000000 ≤ t ∧ 10000000 - t ≤ w := by
  unfold phaseError
  split <;> omega

/-- The timebase that has seen a pulse in its second. -/
def Timebase.seen (tb : Timebase) : Timebase := { tb with pulseSeen := true }

/-- A pulse without a label to apply is judged by the rule of its state. -/
theorem takePulse_without_label {tb : Timebase} (h : tb.label = none) (e : Int) (good : Bool) :
    takePulse tb e good = judgePulse tb.seen e good := by
  have htb : { tb with label := none, pulseSeen := true } = tb.seen := by
    rw [← h]
    rfl
  unfold takePulse
  dsimp only
  split
  · rw [htb]
  · next hl => exact absurd (h.symm.trans hl) nofun

/-- The sub-event of TIME that counts a pulse (R51). -/
def pulseSub : Bool → Nat
  | true => 0
  | false => 1

theorem exec_referencePulse_eq {s : State} {good : Bool} (hgood : decide ((phaseError s.site.tb.ticks).natAbs ≤ s.site.tb.lockWindow) = good) :
    exec .referencePulse s = .next (applyEvent (takePulse s.site.tb (phaseError s.site.tb.ticks) good)
      (s.setDev (count s.site .time (pulseSub good) s.dev))) := by
  change execReferencePulse s = _
  simp only [execReferencePulse, hgood]
  cases good <;> rfl

/-- A good pulse without a label whose judgement neither steps nor changes trust. -/
theorem exec_referencePulse_quiet {s : State} (hlabel : s.site.tb.label = none)
    (hgood : decide ((phaseError s.site.tb.ticks).natAbs ≤ s.site.tb.lockWindow) = true) (tb : Timebase)
    (hjudge : judgePulse s.site.tb.seen (phaseError s.site.tb.ticks) true = .quiet tb) :
    exec .referencePulse s = .next ((s.setTb tb).setDev (refresh { s.site with tb := tb } (count s.site .time 0 s.dev))) := by
  rw [exec_referencePulse_eq hgood, takePulse_without_label hlabel, hjudge, applyEvent_quiet, pulseSub]
  rfl

/-- The event that also gains trust. -/
def TimeEvent.gaining (ev : TimeEvent) : TimeEvent := { ev with change := .gained }

theorem TimeEvent.gaining_quiet (tb : Timebase) : (TimeEvent.quiet tb).gaining = ⟨tb, none, .gained⟩ := rfl

section Judged

variable (tb : Timebase) {e : Int}

theorem judgePulse_unset (h : tb.disc = .unset) (good : Bool) : judgePulse tb e good = plainAlign tb e := by
  simp only [judgePulse, h]

theorem judgePulse_locked_good (h : tb.disc = .locked) : judgePulse tb e true = plainAlign { tb with outliers := 0 } e := by
  simp only [judgePulse, h, if_true]

theorem judgePulse_holdover_present (h : tb.disc = .holdover) (hpres : tb.present = true) :
    judgePulse tb e true = plainAlign { tb with disc := .locked, outliers := 0, holdover := 0 } e := by
  simp only [judgePulse, h, hpres, Bool.not_true, Bool.false_eq_true, if_false, if_true]

theorem judgePulse_holdover_absent (h : tb.disc = .holdover) (hpres : tb.present = false) :
    judgePulse tb e true = plainAlign { tb with outliers := 0 } e := by
  simp only [judgePulse, h, hpres, Bool.not_true, Bool.false_eq_true, if_false]

theorem judgePulse_acquiring_absent (h : tb.disc = .acquiring) (hpres : tb.present = false) :
    judgePulse tb e true = plainAlign { tb with good := 0 } e := by
  simp only [judgePulse, h, hpres, Bool.not_true, Bool.not_false, Bool.false_eq_true, if_false, if_true]

theorem judgePulse_acquiring_counted (h : tb.disc = .acquiring) (hpres : tb.present = true) (hfew : tb.good + 1 < tb.pulsesToLock) :
    judgePulse tb e true = plainAlign { tb with good := tb.good + 1 } e := by
  simp only [judgePulse, h, hpres, Bool.not_true, Bool.false_eq_true, if_false, Nat.not_le.mpr hfew]

theorem judgePulse_acquiring_gained (h : tb.disc = .acquiring) (hpres : tb.present = true) (hlock : tb.pulsesToLock ≤ tb.good + 1) :
    judgePulse tb e true = (plainAlign { tb with good := tb.good + 1, outliers := 0, disc := .locked } e).gaining := by
  simp only [judgePulse, h, hpres, Bool.not_true, Bool.false_eq_true, if_false, hlock, if_true, TimeEvent.gaining]

end Judged

/-- Gained trust finds no item waiting: the notice changes nothing. -/
theorem takeNotice_gained {x : Site} {d : Device} (hitem : ∀ k due, d.em.item ≠ some ⟨k, due, .waiting⟩) :
    takeNotice x ⟨none, .gained⟩ d = d := by
  have hquiet : (x.timing.mode == SiteMode.sfnStrict && (TrustChange.gained == TrustChange.lost)) = false := by
    rw [Bool.and_eq_false_iff]
    exact .inr rfl
  simp only [takeNotice, hquiet, Bool.false_eq_true, if_false, Option.isNone_none, Option.isSome_none, if_true]
  exact afterModeChange_of_no_wait hitem x

/-- An event that gains trust with no item waiting. -/
theorem applyEvent_gained {s : State} (hitem : ∀ k due, s.dev.em.item ≠ some ⟨k, due, .waiting⟩) (tb : Timebase) :
    applyEvent ⟨tb, none, .gained⟩ s = (s.setTb tb).setDev (refresh { s.site with tb := tb } s.dev) := by
  simp only [applyEvent, Option.isSome_none, Bool.false_eq_true, if_false]
  rw [if_pos (by decide), takeNotice_gained (by simpa using hitem)]
  rfl

@[simp] theorem em_count (x : Site) (cls : CountClass) (sub : Nat) (d : Device) : (count x cls sub d).em = d.em := by
  rw [count_eq_bump, bump_frame]

/-- Settles O50: each state of discipline judges the good pulse by an alignment. -/
theorem goodPulseAligns : Obligations.GoodPulseAligns := by
  intro s hticks hlabel hgood secs
  have hgood' : decide ((phaseError s.site.tb.ticks).natAbs ≤ s.site.tb.lockWindow) = true := by
    rw [decide_eq_true_eq, goodPulse_iff hticks]
    exact hgood
  refine ⟨s.site.tb.nearestEra, fun hdisc => ?unset, fun hdisc => ?locked, fun hdisc hpres => ?regained, fun hdisc hpres hfew => ?counted,
    fun hdisc hpres => ?absent, fun hdisc hpres hlock hitem => ?gained, fun hdisc hpres => ⟨fun hlow => ?holdover,
    fun hhigh hlimit => ?boundary, fun hhigh hlimit => ?expired⟩⟩
  case unset =>
    exact exec_referencePulse_quiet hlabel hgood' _
      ((judgePulse_unset s.site.tb.seen hdisc true).trans (plainAlign_of_not_holdover hticks rfl (hdisc ▸ nofun)))
  case locked =>
    exact exec_referencePulse_quiet hlabel hgood' _
      ((judgePulse_locked_good s.site.tb.seen hdisc).trans (plainAlign_of_not_holdover hticks rfl (hdisc ▸ nofun)))
  case regained =>
    exact exec_referencePulse_quiet hlabel hgood' _
      ((judgePulse_holdover_present s.site.tb.seen hdisc hpres).trans (plainAlign_of_not_holdover hticks rfl nofun))
  case counted =>
    exact exec_referencePulse_quiet hlabel hgood' _
      ((judgePulse_acquiring_counted s.site.tb.seen hdisc hpres hfew).trans (plainAlign_of_not_holdover hticks rfl (hdisc ▸ nofun)))
  case absent =>
    exact exec_referencePulse_quiet hlabel hgood' _
      ((judgePulse_acquiring_absent s.site.tb.seen hdisc hpres).trans (plainAlign_of_not_holdover hticks rfl (hdisc ▸ nofun)))
  case gained =>
    have hjudge := (judgePulse_acquiring_gained s.site.tb.seen (e := phaseError s.site.tb.ticks) hdisc hpres hlock).trans
      (congrArg TimeEvent.gaining (plainAlign_of_not_holdover hticks rfl nofun))
    rw [exec_referencePulse_eq hgood', takePulse_without_label hlabel, hjudge, TimeEvent.gaining_quiet,
      applyEvent_gained (by simpa using hitem), pulseSub]
    rfl
  case holdover =>
    exact exec_referencePulse_quiet hlabel hgood' _
      ((judgePulse_holdover_absent s.site.tb.seen hdisc hpres).trans (plainAlign_without_boundary rfl hlow))
  case boundary =>
    exact exec_referencePulse_quiet hlabel hgood' _
      (((judgePulse_holdover_absent s.site.tb.seen hdisc hpres).trans (plainAlign_with_boundary hticks rfl hhigh)).trans
        (boundary_below_limit hdisc hlimit))
  case expired =>
    have hjudge := ((judgePulse_holdover_absent s.site.tb.seen hdisc hpres).trans (plainAlign_with_boundary hticks rfl hhigh)).trans
      (boundary_at_limit hdisc hlimit)
    rw [exec_referencePulse_eq hgood', takePulse_without_label hlabel, hjudge]
    exact ⟨_, rfl⟩

/-! ### Missing pulses, the reference, and second boundaries (R49, R50, R53, R56, R57) -/

/-- Settles O52: each event but the limit's is one without step or change of trust. -/
theorem pulseChecksAndBoundaries : Obligations.PulseChecksAndBoundaries := by
  refine ⟨fun s => ⟨fun hdue hseen => ⟨_, rfl, ?seen⟩, fun hdue hseen hdisc => ⟨_, rfl, ?missed⟩, fun hpres hdisc => ⟨_, rfl, ?loss⟩,
    fun habs => ⟨_, rfl, ?back⟩⟩, fun s hticks => ⟨s.site.tb.nextSecond.era, ?_⟩⟩
  case seen =>
    change execMissingPulseCheck s = _
    simp only [execMissingPulseCheck, hdue, hseen, Bool.not_true, Bool.false_eq_true, if_false, Bool.true_or, if_true]
    rfl
  case missed =>
    change execMissingPulseCheck s = _
    have hmiss : missPulse { s.site.tb with checkDue := false, pulseSeen := false }
        = { s.site.tb with checkDue := false, pulseSeen := false, disc := .holdover, holdover := 0 } := by
      simp only [missPulse, hdisc]
    have hjudged : (s.site.tb.pulseSeen || decide (s.site.tb.disc = .unset)) = false := by rw [hseen, hdisc]; rfl
    simp only [execMissingPulseCheck, hdue, Bool.not_true, Bool.false_eq_true, if_false, hjudged]
    rw [hmiss]
    rfl
  case loss =>
    have hmiss : missPulse { s.site.tb with present := false } = { s.site.tb with present := false, disc := .holdover, holdover := 0 } := by
      simp only [missPulse, hdisc]
    change execReferenceLoss s = _
    simp only [execReferenceLoss, hpres, Bool.not_true, Bool.false_eq_true, if_false]
    rw [hmiss]
    rfl
  case back =>
    change execReferenceReturn s = _
    simp only [execReferenceReturn, habs, Bool.false_eq_true, if_false]
    rfl
  have hexec : exec .secondBoundary s
      = .next (applyEvent (boundary { s.site.tb.nextSecond with ticks := 0 }) (s.setDev (elapse s.dev))) := by
    have hwrap : ¬ s.site.tb.ticks + 1 ≠ Config.ticksPerSecond := by
      rw [hticks]
      decide
    change execSecondBoundary s = _
    rw [execSecondBoundary]
    exact if_neg hwrap
  rw [hexec]
  refine ⟨fun hdisc => ⟨_, rfl, ?outside⟩, fun hdisc hlimit => ⟨_, rfl, ?counted⟩, fun hdisc hlimit => ⟨_, rfl, ?expired⟩⟩
  case outside =>
    rw [boundary_of_not_holdover (tb := { s.site.tb.nextSecond with ticks := 0 }) hdisc]
    rfl
  case counted =>
    rw [boundary_below_limit (tb := { s.site.tb.nextSecond with ticks := 0 }) hdisc hlimit]
    rfl
  case expired =>
    rw [boundary_at_limit (tb := { s.site.tb.nextSecond with ticks := 0 }) hdisc hlimit]
    exact ⟨rfl, rfl, rfl, rfl⟩

end Sys2Proof.Machine
end

section
/-! PROOFS. The judgement of a head cell and the completion of an intake burst (R18 to R30, R97, R110). -/

namespace Sys2Proof.Machine

/-! ### Operations that leave slots and intakes alone

A count, a request for a burst and the loader's taking of a cell read of the slots and intakes only whether the feeds are in SYNC, so they
may be made before or after a slot and an intake are written. -/

/-- The device with one slot's record changed and one intake replaced. -/
def Device.dress (d : Device) (slot : SlotNo) (g : Record → Record) (f : Feed) (i : Intake) : Device := (d.updSlot slot g).setIntake f i

section Dress

variable {d : Device} {f : Feed} {i : Intake} (h : i.delin = (d.intake f).delin) (slot : SlotNo) (g : Record → Record)

@[simp] theorem Device.dress_intake : (d.dress slot g f i).intake f = i := by simp [Device.dress]
@[simp] theorem Device.dress_cat : (d.dress slot g f i).cat = d.cat := by simp [Device.dress]
@[simp] theorem Device.dress_arb : (d.dress slot g f i).arb = d.arb := by simp [Device.dress]

theorem Device.dress_setIntake (j : Intake) : (d.dress slot g f i).setIntake f j = d.dress slot g f j := by simp [Device.dress]

theorem setCat_dress (c : Catalogue) : (d.dress slot g f i).setCat c = (d.setCat c).dress slot g f i := by cases f <;> rfl

theorem setArb_dress (a : Arbiter) : (d.dress slot g f i).setArb a = (d.setArb a).dress slot g f i := by cases f <;> rfl

/-- A slot changed twice. -/
theorem updSlot_dress (g' : Record → Record) :
    (d.dress slot g f i).updSlot slot g' = d.dress slot (fun r => g' (g r)) f i := by
  cases f <;> simp [Device.dress, Device.updSlot, Device.setIntake, vmodify]

include h

theorem conditionWord_dress (x : Site) : conditionWord x (d.dress slot g f i) = conditionWord x d := by
  cases f
  · have hsync : i.inSync = d.intakeA.inSync := by rw [Intake.inSync, Intake.inSync, h]; rfl
    simp only [conditionWord, levelWord, outputMode, muteNoFeed, Device.dress, Device.setIntake, hsync]
    rfl
  · have hsync : i.inSync = d.intakeB.inSync := by rw [Intake.inSync, Intake.inSync, h]; rfl
    simp only [conditionWord, levelWord, outputMode, muteNoFeed, Device.dress, Device.setIntake, hsync]
    rfl

theorem refresh_dress (x : Site) : refresh x (d.dress slot g f i) = (refresh x d).dress slot g f i := by
  unfold refresh
  dsimp only
  rw [conditionWord_dress h]
  cases f <;> rfl

theorem bump_dress (x : Site) (hit : Counter → Nat) : bump x hit (d.dress slot g f i) = (bump x hit d).dress slot g f i := by
  have hcounters : (d.dress slot g f i).counters = d.counters := by simp [Device.dress]
  by_cases hwrap : SomeWraps hit d.counters
  · have hwrap' : SomeWraps hit (d.dress slot g f i).counters := by rwa [hcounters]
    rw [bump_of_wrap hwrap, bump_of_wrap hwrap', hcounters]
    unfold latch
    rw [← refresh_dress (d := { d with counters := vmap (fun c => c.add (hit c)) d.counters, latched := d.latched ||| counterWrapBit })
      (by cases f <;> exact h)]
    cases f <;> rfl
  · have hwrap' : ¬ SomeWraps hit (d.dress slot g f i).counters := by rwa [hcounters]
    rw [bump_of_no_wrap hwrap, bump_of_no_wrap hwrap', hcounters]
    cases f <;> rfl

theorem count_dress (x : Site) (cls : CountClass) (sub : Nat) :
    count x cls sub (d.dress slot g f i) = (count x cls sub d).dress slot g f i := bump_dress h slot g x _

theorem ask_dress (x : Site) (q : Requestor) (t : Target) : ask x q t (d.dress slot g f i) = (ask x q t d).dress slot g f i := by
  unfold ask
  rw [Device.dress_arb]
  split
  · rfl
  · split
    · rw [setArb_dress]
      exact count_dress (by cases f <;> exact h) slot g x _ _
    · exact setArb_dress slot g _

omit h in
theorem clipRecord_dress (id : ClipId) : clipRecord id (d.dress slot g f i) = clipRecord id d := by
  unfold clipRecord findClip
  rw [Device.dress_cat]

theorem askLoad_dress (x : Site) : askLoad x (d.dress slot g f i) = (askLoad x d).dress slot g f i := by
  unfold askLoad
  rw [Device.dress_cat]
  split
  · rfl
  · split
    · rfl
    · rw [clipRecord_dress]
      split
      · rfl
      · split
        · split
          · exact ask_dress h slot g x _ _
          · rfl
        · rfl

end Dress

/-- A search does not see an entry replaced by one that has the property exactly where the old one had it. -/
theorem vfind_set {α : Type} {n : Nat} {v : Vector α n} {q : α → Bool} {i : Fin n} {a : α} (ha : q a = q v[i]) :
    vfind (v.set i a) q = vfind v q := by
  unfold vfind
  congr 1
  funext j
  by_cases hij : i = j
  · subst hij
    simpa using ha
  · have hval : i.val ≠ j.val := fun heq => hij (Fin.ext heq)
    simp [hval]

/-- A clip stays where it is found when its record is replaced by one of its id. -/
theorem findClip_set_place {id : ClipId} {d d' : Device} {place : PlaceNo} {c c' : ClipRecord} (hplace : d.cat.places[place] = some c)
    (hid : c'.id = c.id) (hd' : d'.cat.places = d.cat.places.set place (some c')) : findClip id d' = findClip id d := by
  rw [findClip, findClip, hd']
  refine vfind_set ?_
  rw [hplace]
  simp [hid]

/-! ### The loader's judgement of a cell (R24, R110) -/

theorem offerLoadCell_unbound {f : Feed} {cell : Bytes} {d : Device} (h : findSource (.feed f (parseHeader cell).sid) d = none) (x : Site) :
    offerLoadCell x f cell d = count x .cellDrop 4 d := by
  rw [offerLoadCell, h]

section Load

variable {f : Feed} {cell : Bytes} {d : Device} {n : CtxNo} {y : LoadCtx} {place : PlaceNo} {c : ClipRecord}
  (hbound : findSource (.feed f (parseHeader cell).sid) d = some n) (hctx : d.cat.ctxs[n] = some y)
  (hfind : findClip y.clip d = some place) (hplace : d.cat.places[place] = some c) (x : Site)

/-- A cell's count is not the one its load context expects (R110). -/
def LoadCtx.breaks (y : LoadCtx) (h : Header) : Bool := !h.disc && y.expected.any (fun e => h.cont != e)

/-- A clip's record with damage CONTINUITY noted where a cell's count breaks the order (R110). -/
def ClipRecord.noteBreak (c : ClipRecord) (broken : Bool) : ClipRecord := { c with damContinuity := c.damContinuity || broken }

include hbound hctx hfind hplace

/-- A cell that is no PAYLOAD cell, or one of a load that has all its cells, is ignored and counted. -/
theorem offerLoadCell_ignored (hignored : (parseHeader cell).qual ≠ .payload ∨ y.accepted = c.length) :
    offerLoadCell x f cell d = d.setCat { d.cat with
      places := d.cat.places.set place (some { c with ignored := min (c.ignored + 1) 16777215 }) } := by
  have hlength : clipLength y.clip d = c.length := by rw [clipLength, clipRecord_of_place hfind hplace]
  have hignore : ignoreCells y.clip 1 d = d.setCat { d.cat with
      places := d.cat.places.set place (some { c with ignored := min (c.ignored + 1) 16777215 }) } := updClip_of_place hfind hplace _
  simp only [offerLoadCell, hbound, judgeLoadCell, hctx, hlength, hignore]
  by_cases hqual : (parseHeader cell).qual ≠ .payload
  · rw [if_pos hqual]
  · rw [if_neg hqual, if_pos (hignored.resolve_left hqual)]

/-- The device once a cell's count has been compared with the expected one, and the next one is expected. -/
def Device.expectNext (d : Device) (n : CtxNo) (y : LoadCtx) (place : PlaceNo) (c : ClipRecord) (h : Header) : Device :=
  d.setCat { d.cat with
    places := d.cat.places.set place (some (c.noteBreak (y.breaks h)))
    ctxs := d.cat.ctxs.set n (some { y with expected := some (h.cont + 1) }) }

/-- A cell still wanted is compared with the expected count, and then taken where the load FIFO has room. -/
theorem offerLoadCell_wanted (hqual : (parseHeader cell).qual = .payload) (hmore : y.accepted ≠ c.length) :
    offerLoadCell x f cell d =
      if 32 ≤ d.cat.fifo.length then
        updClip y.clip (fun r => { r with damFifo := true }) (d.expectNext n y place c (parseHeader cell))
      else askLoad x (takeCell n (feedClipCell cell) (d.expectNext n y place c (parseHeader cell))) := by
  have hlength : clipLength y.clip d = c.length := by rw [clipLength, clipRecord_of_place hfind hplace]
  have hnote : ∀ mismatch, mismatch = y.breaks (parseHeader cell) →
      setCtx n (some { y with expected := some ((parseHeader cell).cont + 1) })
        (if mismatch then updClip y.clip (fun r => { r with damContinuity := true }) d else d)
      = d.expectNext n y place c (parseHeader cell) := by
    rintro _ rfl
    cases hb : y.breaks (parseHeader cell) with
    | true =>
      rw [if_pos rfl, updClip_of_place hfind hplace]
      simp [setCtx, setPlace, Device.setCat, Device.expectNext, ClipRecord.noteBreak, hb]
    | false =>
      have hsame : c.noteBreak false = c := by simp [ClipRecord.noteBreak]
      rw [if_neg (by decide), Device.expectNext, hb, hsame, vector_set_get hplace]
      rfl
  simp only [offerLoadCell, hbound, judgeLoadCell, hctx, hlength, hqual, ne_eq, not_true_eq_false, if_false, hmore]
  rw [hnote]
  · rfl
  · cases hexp : y.expected <;> simp [LoadCtx.breaks, hexp]

/-- A cell still wanted that finds the load FIFO full. -/
theorem offerLoadCell_full (hqual : (parseHeader cell).qual = .payload) (hmore : y.accepted ≠ c.length) (hfull : 32 ≤ d.cat.fifo.length) :
    offerLoadCell x f cell d = d.setCat { d.cat with
      places := d.cat.places.set place (some { c.noteBreak (y.breaks (parseHeader cell)) with damFifo := true })
      ctxs := d.cat.ctxs.set n (some { y with expected := some ((parseHeader cell).cont + 1) }) } := by
  have hid : findClip y.clip (d.expectNext n y place c (parseHeader cell)) = some place :=
    (findClip_set_place (c' := c.noteBreak (y.breaks (parseHeader cell))) hplace rfl rfl).trans hfind
  rw [offerLoadCell_wanted hbound hctx hfind hplace x hqual hmore, if_pos hfull,
    updClip_of_place (c := c.noteBreak (y.breaks (parseHeader cell))) hid (by simp [Device.expectNext])]
  simp [setPlace, Device.expectNext, Device.setCat]

/-- A cell still wanted that finds room in the load FIFO. -/
theorem offerLoadCell_taken (hqual : (parseHeader cell).qual = .payload) (hmore : y.accepted ≠ c.length)
    (hroom : d.cat.fifo.length < 32) :
    offerLoadCell x f cell d = askLoad x (d.setCat { d.cat with
      places := d.cat.places.set place (some (c.noteBreak (y.breaks (parseHeader cell))))
      ctxs := d.cat.ctxs.set n (some { y with accepted := y.accepted + 1, expected := some ((parseHeader cell).cont + 1) })
      fifo := d.cat.fifo ++ [⟨((parseHeader cell).aux &&& 7) :: payloadOf cell, n, y.accepted, true⟩] }) := by
  rw [offerLoadCell_wanted hbound hctx hfind hplace x hqual hmore, if_neg (Nat.not_le.mpr hroom)]
  simp [takeCell, Device.expectNext, Device.setCat, feedClipCell]

end Load

/-! ### Continuity and cues of an accepted cell (R26, R27) -/

/-- A cell is one whose continuity is tracked: a PAYLOAD cell of a component SID (R26). -/
def Assembly.tracks (a : Assembly) (h : Header) : Bool := h.qual == .payload && isComponent a.progs h.sid

/-- A tracked cell's count is not the expected one (R26). -/
def Intake.mismatches (i : Intake) (a : Assembly) (h : Header) : Bool :=
  a.tracks h && !h.disc && (i.continuity.find? (fun c => c.1 == h.sid)).any (fun c => h.cont != c.2)

/-- The continuity table after a cell (R26). -/
def Intake.continuityAfter (i : Intake) (a : Assembly) (h : Header) : List (Sid × BitVec 4) :=
  if a.tracks h then i.continuity.filter (fun c => c.1 != h.sid) ++ [(h.sid, h.cont + 1)] else i.continuity

/-- A cell is a SIGNAL cell of a cue SID (R27). -/
def Assembly.hasCue (a : Assembly) (h : Header) : Bool := h.qual == .signal && a.progs.any (fun g => g.cueSid == some h.sid)

theorem checkContinuity_dress {f : Feed} {d : Device} {i : Intake} (hd : i.delin = (d.intake f).delin) (slot : SlotNo) (g : Record → Record)
    (x : Site) (a : Assembly) (h : Header) :
    checkContinuity x f a h (d.dress slot g f i)
      = (if i.mismatches a h then count x .continuity (feedBit f) d else d).dress slot g f
          { i with continuity := i.continuityAfter a h } := by
  cases htrack : a.tracks h with
  | false =>
    have hskip : (h.qual == .payload && isComponent a.progs h.sid) = false := htrack
    simp [checkContinuity, hskip, Intake.mismatches, Intake.continuityAfter, htrack]
  | true =>
    have hgo : (h.qual == .payload && isComponent a.progs h.sid) = true := htrack
    have hjudge : ∀ mismatch, mismatch = i.mismatches a h →
        updIntake f (fun i => { i with continuity := i.continuity.filter (fun c => c.1 != h.sid) ++ [(h.sid, h.cont + 1)] })
          (if mismatch then count x .continuity (feedBit f) (d.dress slot g f i) else d.dress slot g f i)
        = (if i.mismatches a h then count x .continuity (feedBit f) d else d).dress slot g f
          { i with continuity := i.continuityAfter a h } := by
      rintro _ rfl
      rw [count_dress hd]
      cases i.mismatches a h <;> simp [updIntake, Device.dress_setIntake, Intake.continuityAfter, htrack]
    simp only [checkContinuity, hgo, if_true, Device.dress_intake]
    refine hjudge _ ?_
    cases hknown : i.continuity.find? (fun c => c.1 == h.sid) <;> simp [Intake.mismatches, htrack, hknown]

theorem extractCue_dress {f : Feed} {d : Device} {i : Intake} (hd : i.delin = (d.intake f).delin) {slot : SlotNo} {g : Record → Record}
    (hcues : ∀ r, (g r).cues = r.cues) {room : Bool} (hroom : decide ((d.slots[slot]).cues.length < 4) = room) (x : Site) (a : Assembly)
    (h : Header) (cell : Bytes) :
    extractCue x slot a h cell (d.dress slot g f i)
      = (if a.hasCue h && !room then count x .cue 6 d else d).dress slot
          (fun r => { g r with
            cues := if a.hasCue h && room then r.cues ++ [⟨h.sid, h.index.toNat, payloadOf cell⟩] else r.cues }) f i := by
  have hsame : (fun r => { g r with cues := r.cues }) = g := by
    funext r
    rw [← hcues r]
  have hslot : ((d.dress slot g f i).slots[slot]).cues = (d.slots[slot]).cues := by
    simp [Device.dress, hcues]
  cases hcue : a.hasCue h with
  | false =>
    have hno : (h.qual == .signal && a.progs.any (fun g => g.cueSid == some h.sid)) = false := hcue
    simp [extractCue, hno, hsame]
  | true =>
    have hyes : (h.qual == .signal && a.progs.any (fun g => g.cueSid == some h.sid)) = true := hcue
    simp only [extractCue, hyes, if_true, hslot, Config.cueListSize]
    cases room with
    | true =>
      rw [if_pos (of_decide_eq_true hroom), updSlot_dress]
      simp [hcues]
    | false =>
      rw [if_neg (of_decide_eq_false hroom), count_dress hd]
      simp [hsame]

/-! ### Accepted cells (R18, R21, R22) -/

/-- The record of a slot once a cell is accepted into it: the running check, MISSING where positions were passed over, and a cue (R18,
R22, R27). -/
def Record.accept (r : Record) (a : Assembly) (cell : Bytes) (room : Bool) : Record :=
  { r with
    running := frameCheckMore r.running cell
    damage := { r.damage with missing := r.damage.missing || decide (a.next < (parseHeader cell).index.toNat) }
    cues := if a.hasCue (parseHeader cell) && room then
        r.cues ++ [⟨(parseHeader cell).sid, (parseHeader cell).index.toNat, payloadOf cell⟩]
      else r.cues }

/-- What an accepted cell counts of its continuity and its cue (R26, R27). -/
def countAccepted (x : Site) (f : Feed) (a : Assembly) (cell : Bytes) (room : Bool) (d : Device) : Device :=
  let checked := if (d.intake f).mismatches a (parseHeader cell) then count x .continuity (feedBit f) d else d
  if a.hasCue (parseHeader cell) && !room then count x .cue 6 checked else checked

/-- The intake once a cell is accepted that writes `e` (R18, R26). -/
def Intake.accept (i : Intake) (a : Assembly) (cell : Bytes) (e : HeaderEntry) : Intake :=
  { i with
    continuity := i.continuityAfter a (parseHeader cell)
    assembly := some { a with next := (parseHeader cell).index.toNat + 1, writing := some e } }

theorem updSlot_eq_dress (d : Device) (slot : SlotNo) (g : Record → Record) (f : Feed) : d.updSlot slot g = d.dress slot g f (d.intake f) := by
  cases f <;> rfl

theorem slotPlace_eq {pos : Nat} {pl : Fin 256} (h : pos = pl.val + 1) : slotPlace pos = some pl := by
  subst h
  simp [slotPlace]

@[simp] theorem slots_count (x : Site) (cls : CountClass) (sub : Nat) (d : Device) : (count x cls sub d).slots = d.slots := by
  rw [count_eq_bump, bump_frame]

@[simp] theorem cat_count (x : Site) (cls : CountClass) (sub : Nat) (d : Device) : (count x cls sub d).cat = d.cat := by
  rw [count_eq_bump, bump_frame]

/-- The checks of an accepted cell write its record and the continuity table, and count. -/
theorem checks_of_accepted (x : Site) (f : Feed) {slot : SlotNo} (a : Assembly) (cell : Bytes) {d : Device} {room : Bool}
    (hroom : decide ((d.slots[slot]).cues.length < 4) = room) :
    extractCue x slot a (parseHeader cell) cell (checkContinuity x f a (parseHeader cell) (d.updSlot slot (fun r =>
        { r with
          running := frameCheckMore r.running cell
          damage := { r.damage with missing := r.damage.missing || decide (a.next < (parseHeader cell).index.toNat) } })))
      = (countAccepted x f a cell room d).dress slot (fun r => r.accept a cell room) f
          { d.intake f with continuity := (d.intake f).continuityAfter a (parseHeader cell) } := by
  have hintake : ∀ b : Bool, (if b then count x .continuity (feedBit f) d else d).intake f = d.intake f := by
    intro b
    cases b <;> simp
  have hslots : ∀ b : Bool, (if b then count x .continuity (feedBit f) d else d).slots = d.slots := by
    intro b
    cases b <;> simp
  rw [updSlot_eq_dress _ _ _ f, checkContinuity_dress rfl, extractCue_dress (room := room)]
  · rfl
  · rw [hintake]
  · exact fun _ => rfl
  · rw [hslots]
    exact hroom

/-- An accepted cell, once what the windows make of it is known. -/
theorem acceptCell_eq {f : Feed} {slot : SlotNo} {a : Assembly} {cell : Bytes} {d d' : Device} {w : Writing} {pl : Fin 256} {room : Bool}
    (hpos : (parseHeader cell).index.toNat = pl.val + 1) (hroom : decide ((d.slots[slot]).cues.length < 4) = room) (x : Site)
    (hwin : ∀ g i, i.delin = (d.intake f).delin →
      applyWindows x f a (parseHeader cell).index.toNat cell ((countAccepted x f a cell room d).dress slot g f i) = (w, d'.dress slot g f i)) :
    acceptCell x f slot a cell d = ask x (intakeRequestor f) (.intake slot pl w.cell)
      (d'.dress slot (fun r => r.accept a cell room) f ((d.intake f).accept a cell w.entry)) := by
  have hplace := slotPlace_eq hpos
  simp only [acceptCell]
  rw [checks_of_accepted x f a cell hroom, hwin _ { d.intake f with continuity := (d.intake f).continuityAfter a (parseHeader cell) } rfl]
  simp only [hplace, updIntake, Device.dress_setIntake, Device.dress_intake]
  rfl

/-! ### Treatments (R23, R24) -/

/-- The nibbles of a byte put together from two. -/
theorem nibbles_append (a b : BitVec 4) :
    (a ++ b).extractLsb' 4 4 = a ∧ (a ++ b).extractLsb' 2 2 = b.extractLsb' 2 2 ∧ (a ++ b).getLsbD 1 = b.getLsbD 1 := by
  revert a b
  decide

/-- The low nibble of a byte keeps its bits. -/
theorem lowNibble_bits (b : Byte) :
    (b.extractLsb' 0 4).extractLsb' 2 2 = b.extractLsb' 2 2 ∧ (b.extractLsb' 0 4).getLsbD 1 = b.getLsbD 1 := by
  revert b
  decide

/-- A cell with its SID replaced has the rest of its header. -/
theorem parseHeader_withSid (sid : Sid) (cell : Bytes) : parseHeader (withSid sid cell) = { parseHeader cell with sid := sid } := by
  have hbyte : ∀ k, byteAt (withSid sid cell) (k + 3) = byteAt cell (k + 3) := by
    intro k
    simp [byteAt, withSid, Nat.add_comm]
  obtain ⟨hhigh, hqual, hdisc⟩ := nibbles_append (sid.extractLsb' 0 4) ((byteAt cell 2).extractLsb' 0 4)
  obtain ⟨hqual', hdisc'⟩ := lowNibble_bits (byteAt cell 2)
  have h1 : byteAt (withSid sid cell) 1 = sid.extractLsb' 4 8 := rfl
  have h2 : byteAt (withSid sid cell) 2 = sid.extractLsb' 0 4 ++ (byteAt cell 2).extractLsb' 0 4 := rfl
  simp only [parseHeader, h1, h2, hbyte 0, hbyte 1, hbyte 2, hbyte 3, hhigh, hqual, hdisc, hqual', hdisc', sid_halves]

theorem payloadOf_withSid (sid : Sid) (cell : Bytes) : payloadOf (withSid sid cell) = payloadOf cell := by
  simp [payloadOf, withSid]

theorem applyWindows_carry {a : Assembly} {f : Feed} {cell : Bytes} {sid : Sid}
    (h : treatment a f (parseHeader cell).sid = .carry sid) (x : Site) (pos : Nat) (d : Device) :
    applyWindows x f a pos cell d = (carryWriting a pos sid cell, d) := by
  simp only [applyWindows, h]

theorem applyWindows_drop {a : Assembly} {f : Feed} {cell : Bytes} (h : treatment a f (parseHeader cell).sid = .drop) (x : Site) (pos : Nat)
    (d : Device) : applyWindows x f a pos cell d = (nullWriting pos, count x .cellDrop 3 d) := by
  simp only [applyWindows, h]
  rfl

theorem applyWindows_load {a : Assembly} {f : Feed} {cell : Bytes} (h : treatment a f (parseHeader cell).sid = .load) (x : Site) (pos : Nat)
    (d : Device) : applyWindows x f a pos cell d = (nullWriting pos, offerLoadCell x f cell d) := by
  simp only [applyWindows, h]

section Treatment

variable {a : Assembly} {f : Feed} {sid : Sid} {w : Window}

theorem treatment_default_carry (h : winningWindow a.windows f sid = none) (hdef : a.defaultAction = .carry) :
    treatment a f sid = .carry sid := by simp only [treatment, h, hdef]

theorem treatment_default_drop (h : winningWindow a.windows f sid = none) (hdef : a.defaultAction = .drop) : treatment a f sid = .drop := by
  simp only [treatment, h, hdef]

theorem treatment_window_carry (h : winningWindow a.windows f sid = some w) (hkind : w.kind = .carry) :
    treatment a f sid = .carry (w.carrySid sid) := by simp only [treatment, h, hkind]

theorem treatment_window_drop (h : winningWindow a.windows f sid = some w) (hkind : w.kind = .drop) : treatment a f sid = .drop := by
  simp only [treatment, h, hkind]

theorem treatment_window_load (h : winningWindow a.windows f sid = some w) (hkind : w.kind = .load) : treatment a f sid = .load := by
  simp only [treatment, h, hkind]

end Treatment

/-- The count of an accepted cell finds and leaves the catalogue as it is. -/
theorem cat_countAccepted (x : Site) (f : Feed) (a : Assembly) (cell : Bytes) (room : Bool) (d : Device) :
    (countAccepted x f a cell room d).cat = d.cat := by
  unfold countAccepted
  dsimp only
  split <;> split <;> simp

theorem intake_countAccepted (x : Site) (f : Feed) (a : Assembly) (cell : Bytes) (room : Bool) (d : Device) :
    (countAccepted x f a cell room d).intake f = d.intake f := by
  unfold countAccepted
  dsimp only
  split <;> split <;> simp

theorem findSource_congr {src : LoadSource} {d d' : Device} (h : d'.cat.ctxs = d.cat.ctxs) : findSource src d' = findSource src d := by
  rw [findSource, findSource, h]

/-! ### The cell at the head (R18, R20, R22) -/

theorem exec_intakeCellAtHead {f : Feed} {cell : Bytes} {rest : List FifoEntry} {a : Assembly} {s : State}
    (hfifo : (s.dev.intake f).fifo = .data cell :: rest) (hasm : (s.dev.intake f).assembly = some a) (hwriting : a.writing = none)
    (hfree : s.dev.arb.outstanding (intakeRequestor f) = false) :
    exec (.intakeCellAtHead f) s = .next (s.setDev (headCell s.site f cell s.dev)) := by
  have hidle : ((s.dev.intake f).busy || s.dev.arb.outstanding (intakeRequestor f)) = false := by
    simp [Intake.busy, hasm, hwriting, hfree]
  change execIntakeCellAtHead f s = _
  simp only [execIntakeCellAtHead, hfifo]
  rw [hidle, if_neg (by decide)]

/-- A cell without a slot, or out of the order of its frame. -/
theorem headCell_without_slot {f : Feed} {cell : Bytes} {a : Assembly} {d : Device} (hasm : (d.intake f).assembly = some a)
    (hslot : a.slot = none) (x : Site) : headCell x f cell d = count x .cellDrop 2 (popFifo f d) := by
  simp only [headCell, hasm, hslot]
  rfl

theorem headCell_with_slot {f : Feed} {cell : Bytes} {a : Assembly} {slot : SlotNo} {d : Device} (hasm : (d.intake f).assembly = some a)
    (hslot : a.slot = some slot) (x : Site) :
    headCell x f cell d =
      if (d.slots[slot]).declared < (parseHeader cell).index.toNat ∨ (parseHeader cell).index.toNat < a.next then
        checkComplete x f (popFifo f (d.updSlot slot (fun r => { r with damage := { r.damage with overlong := true } })))
      else acceptCell x f slot a cell d := by
  simp only [headCell, hasm, hslot, Bool.or_eq_true, decide_eq_true_eq]

/-- Settles O45: the slot and the place of the cell, then its checks, then its treatment by the windows. -/
theorem headCellIsJudged : Obligations.HeadCellIsJudged := by
  intro f cell rest a fr more s hfifo hasm hwriting hfree harr hended i h
  rw [exec_intakeCellAtHead hfifo hasm hwriting hfree]
  refine ⟨fun hslot => ?noSlot, fun slot hslot hbad => ?overlong, fun slot pl hslot hpos hnext hdeclared => ?_⟩
  case noSlot =>
    rw [headCell_without_slot hasm hslot]
    simp only [popFifo, updIntake, hfifo, List.drop_succ_cons, List.drop_zero, i]
  case overlong =>
    rw [headCell_with_slot hasm hslot, if_pos hbad, checkComplete_of_taking (a := fr) (more := more)]
    · simp only [popFifo, updIntake, Device.intake_updSlot, hfifo, List.drop_succ_cons, List.drop_zero, i]
    · simpa [popFifo, updIntake] using harr
    · exact hended
  intro tracked mismatch isCue room checked judged placed carried nulled
  have hin : ¬ ((s.dev.slots[slot]).declared < (parseHeader cell).index.toNat ∨ (parseHeader cell).index.toNat < a.next) := by
    rintro (hover | hbehind)
    · exact absurd hover (Nat.not_lt.mpr hdeclared)
    · exact absurd hbehind (Nat.not_lt.mpr hnext)
  have hjudged : judged = countAccepted s.site f a cell room s.dev := by
    cases f <;> rfl
  have hcat : judged.cat = s.dev.cat := by rw [hjudged, cat_countAccepted]
  have hintake : judged.intake f = i := by rw [hjudged, intake_countAccepted]
  have hplaced : ∀ (w : Writing) (d' : Device),
      (∀ g j, j.delin = i.delin → applyWindows s.site f a h.index.toNat cell (judged.dress slot g f j) = (w, d'.dress slot g f j)) →
      placed w.cell w.entry d' := by
    intro w d' hwin
    have haccept := acceptCell_eq (w := w) (d' := d') hpos (rfl : room = _) s.site (a := a) (fun g j hj => hjudged ▸ hwin g j hj)
    show Host.Outcome.next (s.setDev (headCell s.site f cell s.dev)) = _
    rw [headCell_with_slot hasm hslot, if_neg hin, haccept]
    rfl
  have hcarried : ∀ sid, treatment a f h.sid = .carry sid →
      placed (if sid = h.sid then cell else withSid sid cell) (carried sid) judged :=
    fun sid ht => hplaced (carryWriting a h.index.toNat sid cell) judged (fun g j _ => applyWindows_carry ht s.site _ _)
  have hnulled : ∀ d', (∀ g j, j.delin = i.delin →
      applyWindows s.site f a h.index.toNat cell (judged.dress slot g f j) = (nullWriting h.index.toNat, d'.dress slot g f j)) → nulled d' :=
    fun d' => hplaced (nullWriting h.index.toNat) d'
  have hdropped : treatment a f h.sid = .drop → nulled (count s.site .cellDrop 3 judged) := by
    intro ht
    refine hnulled _ (fun g j hj => ?_)
    rw [applyWindows_drop ht, count_dress (hj.trans (congrArg Intake.delin hintake.symm))]
  have hloaded : treatment a f h.sid = .load → ∀ d', (∀ g j, j.delin = i.delin →
      offerLoadCell s.site f cell (judged.dress slot g f j) = d'.dress slot g f j) → nulled d' := by
    intro ht d' hoffer
    refine hnulled _ (fun g j hj => ?_)
    rw [applyWindows_load ht, hoffer g j hj]
  refine ⟨fun hwin => ⟨fun hdef => ?_, fun hdef => hdropped ?_⟩, fun win hwin => ⟨fun hkind htrans => ?_, fun t hkind htrans => ?_,
    fun hkind => hdropped ?_, fun hkind hunbound => ?_, fun n y place c hkind hbound hctx hfind hplace => ?_⟩⟩
  · have ht : treatment a f h.sid = .carry h.sid := treatment_default_carry hwin hdef
    simpa only [if_true] using hcarried h.sid ht
  · exact treatment_default_drop hwin hdef
  · have ht : treatment a f h.sid = .carry h.sid := by rw [treatment_window_carry hwin hkind, Window.carrySid, htrans]
    simpa only [if_true] using hcarried h.sid ht
  · intro sid
    have ht : treatment a f h.sid = .carry sid := by rw [treatment_window_carry hwin hkind, Window.carrySid, htrans]
    refine ⟨_, ?_, ?_, hcarried sid ht⟩
    · split
      · next heq => rw [heq]
      · exact parseHeader_withSid sid cell
    · split
      · rfl
      · exact payloadOf_withSid sid cell
  · exact treatment_window_drop hwin hkind
  · refine hloaded (treatment_window_load hwin hkind) _ (fun g j hj => ?_)
    rw [offerLoadCell_unbound, count_dress (hj.trans (congrArg Intake.delin hintake.symm))]
    rw [findSource_congr (d := s.dev), hunbound]
    rw [Device.dress_cat, hcat]
  · have ht : treatment a f h.sid = .load := treatment_window_load hwin hkind
    have hdressed : ∀ g j, (judged.dress slot g f j).cat = s.dev.cat := fun g j => (Device.dress_cat slot g).trans hcat
    have hsource : ∀ g j, findSource (.feed f h.sid) (judged.dress slot g f j) = some n := fun g j =>
      (findSource_congr (congrArg Catalogue.ctxs (hdressed g j))).trans hbound
    have hctx' : ∀ g j, (judged.dress slot g f j).cat.ctxs[n] = some y := fun g j => by rw [hdressed, hctx]
    have hfind' : ∀ g j, findClip y.clip (judged.dress slot g f j) = some place := fun g j =>
      (findClip_congr (congrArg Catalogue.places (hdressed g j))).trans hfind
    have hplace' : ∀ g j, (judged.dress slot g f j).cat.places[place] = some c := fun g j => by rw [hdressed, hplace]
    intro clip ctx broken noted
    refine ⟨fun hignored => ?_, fun hqual hmore hfull => ?_, fun hqual hmore hroom => ?_⟩
    · refine hloaded ht _ (fun g j _ => ?_)
      rw [offerLoadCell_ignored (hsource g j) (hctx' g j) (hfind' g j) (hplace' g j) s.site hignored, setCat_dress, hdressed]
      rfl
    · refine hloaded ht _ (fun g j _ => ?_)
      rw [offerLoadCell_full (hsource g j) (hctx' g j) (hfind' g j) (hplace' g j) s.site hqual hmore (by rwa [hdressed]), setCat_dress,
        hdressed]
      rfl
    · refine hloaded ht _ (fun g j hj => ?_)
      rw [offerLoadCell_taken (hsource g j) (hctx' g j) (hfind' g j) (hplace' g j) s.site hqual hmore (by rwa [hdressed]), setCat_dress,
        hdressed, askLoad_dress]
      · rfl
      · exact hj.trans (congrArg Intake.delin hintake.symm)

/-! ### The completion of an intake burst (R18, R28, R29, R30, R90) -/

/-- A device that differs in its arbiter, its counters and what the ports show alone. -/
def Device.SameWork (d d' : Device) : Prop :=
  d' = { d with arb := d'.arb, counters := d'.counters, latched := d'.latched, net := d'.net, maint := d'.maint }

theorem Device.SameWork.trans {d d' d'' : Device} (h : d.SameWork d') (h' : d'.SameWork d'') : d.SameWork d'' := by
  unfold Device.SameWork at *
  rw [h', h]

theorem sameWork_bump (x : Site) (hit : Counter → Nat) (d : Device) : d.SameWork (bump x hit d) := by
  unfold Device.SameWork
  rw [bump_frame]

theorem sameWork_count (x : Site) (cls : CountClass) (sub : Nat) (d : Device) : d.SameWork (count x cls sub d) := by
  rw [count_eq_bump]
  exact sameWork_bump x _ d

/-- The end of a burst changes the arbiter and what the counts of the decision change. -/
theorem sameWork_endBurst (x : Site) (d : Device) : d.SameWork (endBurst x d) := by
  have hpass : ∀ (l : List (Fin 5)) (d' : Device), d'.SameWork (l.foldl (fun d i => count x .storePass i.val d) d') := by
    intro l
    induction l with
    | nil => exact fun _ => rfl
    | cons i l ih => exact fun d' => (sameWork_count x _ _ d').trans (ih _)
  unfold endBurst
  dsimp only
  split
  · exact rfl
  · split
    · exact rfl
    · have hset : ∀ b, d.SameWork (d.setArb b) := fun _ => rfl
      exact ((hset _).trans (sameWork_count x _ _ _)).trans (hpass _ _)

theorem intake_endBurst (x : Site) (d : Device) (f : Feed) : (endBurst x d).intake f = d.intake f := by
  rw [sameWork_endBurst x d]
  cases f <;> rfl

theorem slots_endBurst (x : Site) (d : Device) : (endBurst x d).slots = d.slots := by rw [sameWork_endBurst x d]

/-- The record of a slot once a cell described by `e` is written. -/
def Record.write (r : Record) (e : HeaderEntry) : Record := { r with written := r.written + 1, headers := r.headers ++ [e] }

theorem intakeWrite_eq {f : Feed} {slot : SlotNo} {a : Assembly} {e : HeaderEntry} {d : Device} (hasm : (d.intake f).assembly = some a)
    (hwriting : a.writing = some e) :
    intakeWrite f slot d = ({ d with slots := d.slots.set slot ((d.slots[slot]).write e) }).setIntake f
      { d.intake f with fifo := (d.intake f).fifo.drop 1, assembly := some { a with writing := none } } := by
  have hslots : vmodify d.slots slot (fun r => r.write e) = d.slots.set slot ((d.slots[slot]).write e) := rfl
  simp only [intakeWrite, hasm, hwriting]
  cases f <;> rfl

/-- A hole is a position no entry of the header list names (R28). -/
theorem any_hole_iff (r : Record) :
    (List.range r.declared).any (fun i => r.hole (i + 1)) = decide (∃ n : Fin r.declared, ∀ h ∈ r.headers, h.pos ≠ n.val + 1) := by
  rw [Bool.eq_iff_iff]
  simp [Record.hole, Fin.exists_iff]

theorem completeFrame_eq {f : Feed} {slot : SlotNo} {fr : ArrivalFrame} {more : List ArrivalFrame} {d : Device}
    (harr : (d.intake f).arrivals = fr :: more) (x : Site) :
    completeFrame x f slot d = takeCopy x f slot (decide (finalDamage d.slots[slot] fr = Damage.empty))
      (countComplete x f (decide (finalDamage d.slots[slot] fr = Damage.empty))
        ((d.setIntake f { d.intake f with assembly := none, arrivals := more }).updSlot slot (fun _ =>
          { d.slots[slot] with damage := finalDamage d.slots[slot] fr, completed := some x.tb.now }))) := by
  simp only [completeFrame, harr, List.headD_cons, List.drop_succ_cons, List.drop_zero]
  cases f <;> rfl

/-- A frame whose taking has ended completes once none of its entries is left (R29). -/
theorem checkComplete_of_drained {f : Feed} {slot : SlotNo} {a : Assembly} {fr : ArrivalFrame} {more : List ArrivalFrame} {d : Device}
    (hasm : (d.intake f).assembly = some a) (hslot : a.slot = some slot) (harr : (d.intake f).arrivals = fr :: more)
    (hended : fr.ended = true) (hdrained : ∀ c rest, (d.intake f).fifo ≠ .data c :: rest) (x : Site) :
    checkComplete x f d = completeFrame x f slot d := by
  have hnone : (d.intake f).drained = true := by
    unfold Intake.drained
    split
    · next c rest heq => exact absurd heq (hdrained c rest)
    · rfl
  simp only [checkComplete, hasm, harr, hslot, hended, hnone, Bool.and_self, if_true]

theorem exec_intakeBurstComplete {f : Feed} {slot : SlotNo} {pl : Fin 256} {cell : Bytes} {keep : Bool} {s : State}
    (hcur : s.dev.arb.current = some ⟨intakeRequestor f, .intake slot pl cell, keep⟩) :
    exec (.intakeBurstComplete f) s = .next (s.setDev
      (if keep then checkComplete s.site f (endBurst s.site (intakeWrite f slot (s.dev.store (.intake slot pl cell))))
      else endBurst s.site (s.dev.store (.intake slot pl cell)))) := by
  change execIntakeBurstComplete f s = _
  simp only [execIntakeBurstComplete, hcur, ne_eq, not_true_eq_false, if_false]
  cases keep <;> rfl

/-- Settles O46: the burst's write, then the end of the burst, then the completion of a frame that was waiting for it. -/
theorem intakeBurstWrites : Obligations.IntakeBurstWrites := by
  intro f slot pl cell a e fr more s stored r written
  refine ⟨fun hcur hasm hwriting harr => ?_, fun hcur => exec_intakeBurstComplete hcur⟩
  have hwrite : intakeWrite f slot (s.dev.store (.intake slot pl cell)) = written :=
    (intakeWrite_eq (d := s.dev.store (.intake slot pl cell)) (by cases f <;> exact hasm) hwriting).trans (by cases f <;> rfl)
  have hintake : (endBurst s.site written).intake f
      = { s.dev.intake f with fifo := (s.dev.intake f).fifo.drop 1, assembly := some { a with writing := none } } := by
    rw [intake_endBurst]
    simp [written]
  have hrecord : (endBurst s.site written).slots[slot] = r := by
    rw [slots_endBurst]
    simp [written]
  rw [exec_intakeBurstComplete hcur, if_pos rfl, hwrite]
  refine ⟨fun hended => ?_, fun hended hslot hlast noted final hnoted hfinal => ?_⟩
  · rw [checkComplete_of_taking (a := fr) (more := more) (by rw [hintake]; exact harr) hended]
  · have hdamage : finalDamage r fr = final := by
      rw [hfinal, hnoted, ← any_hole_iff]
      simp only [finalDamage, Bool.and_eq_true, decide_eq_true_eq, bne_iff_ne]
    rw [checkComplete_of_drained (a := { a with writing := none }) (slot := slot) (fr := fr) (more := more) (by rw [hintake]) hslot
      (by rw [hintake]; exact harr) hended (by rw [hintake]; exact hlast), completeFrame_eq (fr := fr) (more := more) (by rw [hintake]; exact harr),
      hrecord, hdamage, hintake]

end Sys2Proof.Machine
end

section
/-! PROOFS. What each operation of the splice engine, the lists and the as-run unit leaves alone, and the emission unit: gap frames,
credits, and the cells it sends (R77 to R86, R96). -/

namespace Sys2Proof.Machine

/-! ### The parts of the device an operation may change -/

/-- The parts of the device; the ports stand for what the ports show: the latched conditions and both summaries. -/
inductive Part where
  | intakes | sel | em | slots | mem | arb | cat | lists | splice | asrun | counters | ports
deriving DecidableEq

/-- Two devices have the same part. -/
def Part.Same (d d' : Device) : Part → Prop
  | .intakes => d'.intakeA = d.intakeA ∧ d'.intakeB = d.intakeB
  | .sel => d'.sel = d.sel
  | .em => d'.em = d.em
  | .slots => d'.slots = d.slots
  | .mem => d'.mem = d.mem
  | .arb => d'.arb = d.arb
  | .cat => d'.cat = d.cat
  | .lists => d'.lists = d.lists
  | .splice => d'.splice = d.splice
  | .asrun => d'.asrun = d.asrun
  | .counters => d'.counters = d.counters
  | .ports => d'.latched = d.latched ∧ d'.net = d.net ∧ d'.maint = d.maint

/-- The second device differs from the first in the listed parts alone. -/
def Device.Within (ps : List Part) (d d' : Device) : Prop := ∀ q : Part, q ∉ ps → q.Same d d'

namespace Device.Within

variable {ps qs : List Part} {d d' d'' : Device}

theorem refl (ps : List Part) (d : Device) : d.Within ps d := by
  intro q _
  cases q <;> simp [Part.Same]

theorem trans (h : d.Within ps d') (h' : d'.Within ps d'') : d.Within ps d'' := by
  intro q hq
  have hq1 := h q hq
  have hq2 := h' q hq
  cases q <;> simp_all [Part.Same]

theorem mono (h : d.Within ps d') (hsub : ∀ q ∈ ps, q ∈ qs) : d.Within qs d' := fun q hq => h q (fun hin => hq (hsub q hin))

theorem em_eq (h : d.Within ps d') (hp : Part.em ∉ ps) : d'.em = d.em := h _ hp
theorem slots_eq (h : d.Within ps d') (hp : Part.slots ∉ ps) : d'.slots = d.slots := h _ hp
theorem mem_eq (h : d.Within ps d') (hp : Part.mem ∉ ps) : d'.mem = d.mem := h _ hp
theorem arb_eq (h : d.Within ps d') (hp : Part.arb ∉ ps) : d'.arb = d.arb := h _ hp
theorem sel_eq (h : d.Within ps d') (hp : Part.sel ∉ ps) : d'.sel = d.sel := h _ hp
theorem cat_eq (h : d.Within ps d') (hp : Part.cat ∉ ps) : d'.cat = d.cat := h _ hp
theorem lists_eq (h : d.Within ps d') (hp : Part.lists ∉ ps) : d'.lists = d.lists := h _ hp
theorem splice_eq (h : d.Within ps d') (hp : Part.splice ∉ ps) : d'.splice = d.splice := h _ hp
theorem asrun_eq (h : d.Within ps d') (hp : Part.asrun ∉ ps) : d'.asrun = d.asrun := h _ hp
theorem counters_eq (h : d.Within ps d') (hp : Part.counters ∉ ps) : d'.counters = d.counters := h _ hp

/-- A fold of operations that each change the listed parts alone. -/
theorem foldl {α : Type} {step : Device → α → Device} (hstep : ∀ (d : Device) (a : α), d.Within ps (step d a)) (l : List α) (d : Device) :
    d.Within ps (l.foldl step d) := by
  induction l generalizing d with
  | nil => exact refl ps d
  | cons a l ih => exact (hstep d a).trans (ih _)

end Device.Within

section Within

variable (x : Site) (d : Device)

theorem refresh_within : d.Within [.ports] (refresh x d) := by
  intro q hq
  cases q <;> simp_all [Part.Same, refresh]

theorem setArb_within (a : Arbiter) : d.Within [.arb] (d.setArb a) := by
  intro q hq
  cases q <;> simp_all [Part.Same, Device.setArb]

theorem setCat_within (c : Catalogue) : d.Within [.cat] (d.setCat c) := by
  intro q hq
  cases q <;> simp_all [Part.Same, Device.setCat]

theorem setLists_within (l : BreakLists) : d.Within [.lists] (d.setLists l) := by
  intro q hq
  cases q <;> simp_all [Part.Same, Device.setLists]

theorem setAsRun_within (a : AsRun) : d.Within [.asrun] (d.setAsRun a) := by
  intro q hq
  cases q <;> simp_all [Part.Same, Device.setAsRun]

theorem setEm_within (e : Emission) : d.Within [.em] (d.setEm e) := by
  intro q hq
  cases q <;> simp_all [Part.Same, Device.setEm]

theorem setSplice_within (sp : Splice) : d.Within [.splice] { d with splice := sp } := by
  intro q hq
  cases q <;> simp_all [Part.Same]

theorem updProg_within (p : ProgNo) (f : Programme → Programme) : d.Within [.splice] (d.updProg p f) := setSplice_within d _

theorem updSlot_within (i : SlotNo) (f : Record → Record) : d.Within [.slots] (d.updSlot i f) := by
  intro q hq
  cases q <;> simp_all [Part.Same, Device.updSlot]

theorem setMem_within (m : SiteMemory) : d.Within [.mem] { d with mem := m } := by
  intro q hq
  cases q <;> simp_all [Part.Same]

theorem latch_within (bits : BitVec 16) : d.Within [.ports] (latch x bits d) := by
  intro q hq
  cases q <;> simp_all [Part.Same, latch, refresh]

theorem Device.SameWork.within {d d' : Device} (h : d.SameWork d') : d.Within [.arb, .counters, .ports] d' := by
  intro q hq
  unfold Device.SameWork at h
  rw [h]
  cases q <;> simp_all [Part.Same]

theorem bump_within (hit : Counter → Nat) : d.Within [.counters, .ports] (bump x hit d) := by
  rw [bump_frame]
  intro q hq
  cases q <;> simp_all [Part.Same]

theorem count_within (cls : CountClass) (sub : Nat) : d.Within [.counters, .ports] (count x cls sub d) := bump_within x d _

theorem sample_within (sent : Bool) : d.Within [.counters, .ports] (sample x sent d) := bump_within x d _

theorem ask_within (r : Requestor) (t : Target) : d.Within [.arb, .counters, .ports] (ask x r t d) := by
  rw [ask_frame]
  intro q hq
  cases q <;> simp_all [Part.Same]

theorem endBurst_within : d.Within [.arb, .counters, .ports] (endBurst x d) := (sameWork_endBurst x d).within

theorem freeSlot_within (i : SlotNo) : d.Within [.slots, .arb] (freeSlot i d) :=
  ((updSlot_within d i _).mono (by decide)).trans ((setArb_within _ _).mono (by decide))

/-! #### The as-run unit -/

theorem loseRecord_within : d.Within [.asrun, .ports] (loseRecord x d) :=
  ((setAsRun_within d _).mono (by decide)).trans ((latch_within x _ _).mono (by decide))

theorem pushRecord_within (r : AsRunRecord) : d.Within [.asrun, .ports] (pushRecord x r d) := by
  unfold pushRecord
  split
  · exact ((setAsRun_within d _).mono (by decide)).trans ((refresh_within x _).mono (by decide))
  · exact loseRecord_within x d

theorem onDraft_within (n : Option DraftNo) (f : Draft → Draft) : d.Within [.asrun] (onDraft n f d) := by
  unfold onDraft
  split
  · exact .refl _ d
  · exact setAsRun_within d _

theorem appendDraft_within (n : Option DraftNo) : d.Within [.asrun, .ports] (appendDraft x n d) := by
  unfold appendDraft
  split
  · exact .refl _ d
  · split
    · exact .refl _ d
    · split
      · exact ((setAsRun_within d _).mono (by decide)).trans (pushRecord_within x _ _)
      · exact .refl _ d

/-! #### The lists and the catalogue -/

theorem updClip_within (id : ClipId) (f : ClipRecord → ClipRecord) : d.Within [.cat] (updClip id f d) := by
  unfold updClip
  split
  · exact .refl _ d
  · exact setCat_within d _

theorem lowerUse_within (id : ClipId) : d.Within [.cat] (lowerUse id d) := by
  unfold lowerUse
  split
  · exact .refl _ d
  · exact setCat_within d _

theorem lowerPlay_within (id : ClipId) : d.Within [.cat] (lowerPlay id d) := updClip_within d id _

theorem raisePlay_within {id : ClipId} {d d' : Device} (h : raisePlay id d = some d') : d.Within [.cat] d' := by
  unfold raisePlay at h
  split at h
  · cases h
  · split at h
    · cases h
      exact updClip_within d id _
    · cases h

theorem unlinkEntry_within (e : EntryNo) : d.Within [.cat, .lists] (unlinkEntry e d) := by
  unfold unlinkEntry
  split
  · exact .refl _ d
  · exact (((setLists_within d _).trans (setLists_within _ _)).mono (by decide)).trans ((lowerUse_within _ _).mono (by decide))

theorem releaseEntry_within (brk : Nat) (e : EntryNo) : d.Within [.cat, .lists] (releaseEntry brk e d) := by
  unfold releaseEntry
  dsimp only
  split
  · exact .refl _ d
  · split
    · exact .refl _ d
    · split
      · split
        · exact unlinkEntry_within d e
        · exact (setLists_within d _).mono (by decide)
      · exact (setLists_within d _).mono (by decide)

theorem releaseHolds_within (brk : Nat) (l : ListNo) : d.Within [.cat, .lists] (releaseHolds brk l d) :=
  .foldl (fun d e => releaseEntry_within d brk e) _ d

theorem rotateList_within (l : ListNo) (last : EntryNo) (toEnd : Bool) : d.Within [.lists] (rotateList l last toEnd d) :=
  setLists_within d _

/-! #### The breaks -/

/-- What a break's source changes: play counts, holds, and its draft. -/
theorem toFiller_within (b : Break) : d.Within [.cat, .lists, .asrun] (toFiller b d).2 := by
  unfold toFiller
  split
  · exact .refl _ d
  · split
    · exact .refl _ d
    · next h => exact ((raisePlay_within h).mono (by decide)).trans ((onDraft_within _ _ _).mono (by decide))

theorem startEntries_within (p : ProgNo) (l : List EntryNo) (b : Break) : d.Within [.cat, .lists, .asrun] (startEntries p l b d).2 := by
  induction l generalizing b d with
  | nil => exact toFiller_within d b
  | cons e rest ih =>
    unfold startEntries
    split
    · exact ih d b
    · split
      · exact toFiller_within d b
      · split
        · exact ih d b
        · dsimp only
          have hset : ∀ y, d.Within [.cat, .lists, .asrun] (setEntry e y d) := fun y => (setLists_within d _).mono (by decide)
          split
          · next h => exact (hset _).trans ((raisePlay_within h).mono (by decide))
          · exact (hset _).trans (ih _ _)

theorem advanceSource_within (p : ProgNo) (b : Break) : d.Within [.cat, .lists, .asrun] (advanceSource p b d).2 := by
  unfold advanceSource
  dsimp only
  split
  · split
    · exact ((lowerPlay_within d _).mono (by decide)).trans (startEntries_within _ p _ _)
    · exact .refl _ d
  · split
    · exact .refl _ d
    · exact .refl _ d
  · exact .refl _ d

theorem closeBreak_within (p : ProgNo) (b : Break) : d.Within [.cat, .lists, .splice, .asrun, .ports] (closeBreak x p b d) := by
  have hlists : ∀ b : Break, d.Within [.cat, .lists, .splice, .asrun, .ports] (match b.list, b.current with
      | some l, some e => releaseHolds b.id l (rotateList l e (b.source != .list) d)
      | _, _ => d) := by
    intro b
    split
    · exact ((rotateList_within d _ _ _).mono (by decide)).trans ((releaseHolds_within _ _ _).mono (by decide))
    · exact .refl _ d
  have hplay : ∀ (o : Option ClipId) (d : Device), d.Within [.cat, .lists, .splice, .asrun, .ports] (match o with
      | some c => lowerPlay c d
      | none => d) := by
    intro o d
    split
    · exact (lowerPlay_within d _).mono (by decide)
    · exact .refl _ d
  have hdraft := fun d => (onDraft_within d b.draft (closeDraft b)).mono (qs := [.cat, .lists, .splice, .asrun, .ports]) (by decide)
  have hremove := fun d => (updProg_within d p (removeBreak b)).mono (qs := [.cat, .lists, .splice, .asrun, .ports]) (by decide)
  have happend := fun d => (appendDraft_within x d b.draft).mono (qs := [.cat, .lists, .splice, .asrun, .ports]) (by decide)
  exact ((((hlists b).trans (hplay b.playing _)).trans (hdraft _)).trans (hremove _)).trans (happend _)

theorem updBreak_within (p : ProgNo) (id : Nat) (f : Break → Break) : d.Within [.splice] (updBreak p id f d) := updProg_within d p _

theorem closeIfDone_within (p : ProgNo) (id : Nat) : d.Within [.cat, .lists, .splice, .asrun, .ports] (closeIfDone x p id d) := by
  unfold closeIfDone
  split
  · exact .refl _ d
  · split
    · exact closeBreak_within x d p _
    · exact .refl _ d

/-! #### The fates of frames -/

theorem markFate_within (f : Fate) (m : Mark) : d.Within [.splice, .asrun, .ports] (markFate x f d m) := by
  unfold markFate
  dsimp only
  split
  · exact .refl _ d
  · exact ((((updBreak_within d _ _ _).mono (by decide)).trans ((onDraft_within _ _ _).mono (by decide))).trans
      ((updProg_within _ _ _).mono (by decide))).trans ((appendDraft_within x _ _).mono (by decide))

theorem finalFate_within (f : Fate) (r : Record) : d.Within [.splice, .asrun, .ports] (finalFate x f r d) :=
  .foldl (fun d m => markFate_within x d f m) _ d

theorem reportStart_within (r : Record) : d.Within [.splice, .asrun] (reportStart x r d) := by
  refine .foldl (fun d m => ?_) _ d
  split
  · exact .refl _ d
  · exact ((updBreak_within d _ _ _).mono (by decide)).trans ((onDraft_within _ _ _).mono (by decide))

theorem endFrame_within (f : Fate) (slot : SlotNo) : d.Within [.splice, .asrun, .ports, .slots, .arb] (endFrame x f slot d) :=
  ((finalFate_within x d f _).mono (by decide)).trans ((freeSlot_within _ slot).mono (by decide))

/-- A frame whose final fate is reported leaves its slot empty. -/
theorem slots_endFrame (f : Fate) (slot : SlotNo) : (endFrame x f slot d).slots = d.slots.set slot Record.empty := by
  have hfree : ∀ d' : Device, (freeSlot slot d').slots = d'.slots.set slot Record.empty := fun _ => rfl
  rw [endFrame, hfree, (finalFate_within x d f _).slots_eq (by decide)]

end Within

/-- What a count adds to the counters depends on the counters alone. -/
theorem counters_bump_congr {d d' : Device} (h : d'.counters = d.counters) (x : Site) (hit : Counter → Nat) :
    (bump x hit d').counters = (bump x hit d).counters := by
  rw [bump_counters, bump_counters, h]

theorem counters_count_congr {d d' : Device} (h : d'.counters = d.counters) (x : Site) (cls : CountClass) (sub : Nat) :
    (count x cls sub d').counters = (count x cls sub d).counters := counters_bump_congr h x _

theorem slotsBusy_congr {d d' : Device} (h : d'.slots = d.slots) : slotsBusy d' = slotsBusy d := by rw [slotsBusy, slotsBusy, h]

/-- A sample depends on the counters, the length of the buffer and the number of busy slots. -/
theorem counters_sample_congr {d d' : Device} (hcount : d'.counters = d.counters) (hdepth : d'.em.buffer.length = d.em.buffer.length)
    (hbusy : slotsBusy d' = slotsBusy d) (x : Site) (sent : Bool) : (sample x sent d').counters = (sample x sent d).counters := by
  unfold sample
  dsimp only
  rw [hdepth, hbusy]
  exact counters_bump_congr hcount x _

/-! ### Items taken (R77, R78) -/

theorem serveItems_of_item {d : Device} {i : Item} (h : d.em.item = some i) (x : Site) : serveItems x d = d := by
  simp only [serveItems, serveLoop, h]

/-- Nothing is taken where no waiting gap frame and no head of the buffer is due. -/
theorem serveItems_of_nothing_due {d : Device} {x : Site} (hitem : d.em.item = none)
    (hgaps : ∀ g gs, d.em.gaps = g :: gs → arrived x.tb g.due 0 = false)
    (hhead : ∀ i due, headDue d = some (i, due) → arrived x.tb due 0 = false) : serveItems x d = d := by
  unfold serveItems serveLoop
  rw [hitem]
  dsimp only
  split
  · next g gs i due hg hh => simp [hgaps g gs hg, hhead i due hh]
  · next g gs hg _ => simp [hgaps g gs hg]
  · next i due _ hh => simp [hhead i due hh]
  · rfl

theorem headDue_of_buffer {d : Device} {slot : SlotNo} {rest : List SlotNo} {due : Due} (hbuf : d.em.buffer = slot :: rest)
    (hdue : (d.slots[slot]).due = some due) : headDue d = some (slot, due) := by
  simp only [headDue, hbuf, hdue]

/-! ### Gap frames (R81) -/

section Gap

variable {g : GapRef} {s : State} (hgap : s.dev.em.gapRef = some g) (hperiod : s.site.timing.period ≠ 0)
  (harr : arrived s.site.tb g.due (g.next * s.site.timing.period : Nat) = true)

include hgap hperiod harr

/-- A candidate instant that has come is examined once. -/
theorem exec_gapCandidateInstant :
    exec .gapCandidateInstant s = .next (s.setDev (
      let d1 := s.dev.setEm { s.dev.em with gapRef := some { g with next := g.next + 1 } }
      let due := g.candidate s.site
      let n := g.number + BitVec.ofNat 24 g.next
      if gapWanted s.dev g due then
        serveItems s.site (count s.site .emission 1 (d1.setEm { d1.em with
          gaps := d1.em.gaps ++ [⟨n, due, gapMarker n (due.total - s.site.timing.offset + s.site.timing.latency)⟩] }))
      else d1)) := by
  have hcand : arrived s.site.tb (g.candidate s.site) 0 = true := by
    simpa [arrived, GapRef.candidate_unwrapped] using harr
  change execGapCandidateInstant s = _
  simp only [execGapCandidateInstant, hgap, hcand, hperiod, Bool.not_true, decide_false, Bool.or_self, Bool.false_eq_true, if_false]
  split <;> rfl

/-- Where no gap frame is wanted, the next candidate is waited for. -/
theorem exec_gapCandidateInstant_unwanted (hno : gapWanted s.dev g (g.candidate s.site) = false) :
    exec .gapCandidateInstant s
      = .next (s.setDev { s.dev with em := { s.dev.em with gapRef := some { g with next := g.next + 1 } } }) := by
  rw [exec_gapCandidateInstant hgap hperiod harr]
  simp only [hno, Bool.false_eq_true, if_false]
  rfl

end Gap

/-- Settles O56: the head at the candidate instant decides. -/
theorem gapFrameIsMade : Obligations.GapFrameIsMade := by
  refine ⟨?_, fun g i due st s hgap hitem hst hperiod hsame harr => ?_⟩
  · intro g l slot rest headDue item s hgap hlast hbuf hdue hitem hperiod at_ n next hearlier harr
    have hhead : headAt s.dev (g.candidate s.site) = some (slot, headDue) := by
      rcases headAt_cases s.dev (g.candidate s.site) with heq | ⟨i, due, _, hlate, hreal⟩
      · rw [heq]
        exact headDue_of_buffer hbuf hdue
      · have hunsent : ∃ st, item = ⟨.real i, due, st⟩ ∧ ∀ k, st ≠ .sending k := by
          rw [hitem] at hreal
          rcases hreal with h | h
          · exact ⟨.waiting, Option.some.inj h, by simp⟩
          · exact ⟨.filling, Option.some.inj h, by simp⟩
        obtain ⟨st, hit, hunsent⟩ := hunsent
        have hbefore := hearlier i due st hit hunsent
        simp only [Due.earlier, GapRef.candidate_unwrapped, decide_eq_false_iff_not] at hlate
        exact absurd hbefore hlate
    refine ⟨fun hnext hlater hafter => ?_, fun hpast => exec_gapCandidateInstant_unwanted hgap hperiod harr ?_⟩
    · have hwanted : gapWanted s.dev g (g.candidate s.site) = true := by
        simp only [gapWanted, hhead, hlast, Due.earlier, GapRef.candidate_unwrapped, Bool.and_eq_true, decide_eq_true_eq, Option.any_some]
        exact ⟨⟨hnext, hlater⟩, hafter⟩
      rw [exec_gapCandidateInstant hgap hperiod harr]
      simp only [hwanted, if_true]
      rw [serveItems_of_item (i := item) (by simpa [Device.setEm] using hitem)]
      exact ⟨_, rfl, by simp [Device.setEm, GapRef.candidate, Due.plus, next, n, at_], counters_count_congr (by rfl) _ _ _, by simp [Device.setEm]⟩
    · simp only [gapWanted, hhead, decide_eq_false (Nat.not_lt.mpr hpast), Bool.false_and]
  · refine exec_gapCandidateInstant_unwanted hgap hperiod harr ?_
    have hlate : due.earlier (g.candidate s.site) = false := by
      simp [Due.earlier, GapRef.candidate_unwrapped, hsame]
    have hnot : (g.candidate s.site).earlier due = false := by
      simp [Due.earlier, GapRef.candidate_unwrapped, hsame]
    have hhead : headAt s.dev (g.candidate s.site) = some (i, due) := by
      rcases hst with rfl | rfl <;> simp [headAt, hitem, hlate]
    simp [gapWanted, hhead, hnot]

/-! ### Items that leave (R77, R78, R81) -/

theorem headDue_eq_some {d : Device} {i : SlotNo} {due : Due} (h : headDue d = some (i, due)) :
    ∃ rest, d.em.buffer = i :: rest ∧ (d.slots[i]).due = some due := by
  unfold headDue at h
  split at h
  · cases h
  · next j rest hbuf =>
    split at h
    · next hdue =>
      cases h
      exact ⟨rest, hbuf, hdue⟩
    · cases h

/-- The head of the buffer that is left when a slot is freed was the head before. -/
theorem headDue_of_freed {d d' : Device} {slot i : SlotNo} {due : Due} (hbuf : d'.em.buffer = d.em.buffer)
    (hslots : d'.slots = d.slots.set slot Record.empty) (h : headDue d' = some (i, due)) : headDue d = some (i, due) := by
  obtain ⟨rest, hbuf', hdue⟩ := headDue_eq_some h
  have hne : slot ≠ i := by
    rintro rfl
    rw [hslots] at hdue
    simp [Record.empty] at hdue
  refine headDue_of_buffer (hbuf ▸ hbuf') ?_
  have hval : slot.val ≠ i.val := fun heq => hne (Fin.ext heq)
  rw [hslots] at hdue
  simpa [hval] using hdue

/-- The emission unit once an item has left at its due instant. -/
def Emission.leave (e : Emission) (x : Site) (d : Device) (k : ItemKind) (due : Due) : Emission :=
  { e with
    lastReleased := some ⟨itemNumber d k, due⟩
    gapRef := match k with
      | .real _ => some ⟨itemNumber d k, due, nextCandidate x due⟩
      | .gap _ => e.gapRef }

theorem leaveAtDue_eq (x : Site) (k : ItemKind) (due : Due) (st : Stage) (d : Device) :
    leaveAtDue x ⟨k, due, st⟩ d = d.setEm (d.em.leave x d k due) := by
  cases k <;> rfl

theorem itemNumber_congr {d d' : Device} (h : d'.slots = d.slots) (k : ItemKind) : itemNumber d' k = itemNumber d k := by
  cases k with
  | real slot => rw [itemNumber, itemNumber, h]
  | gap g => rfl

theorem Emission.leave_congr {d d' : Device} (h : d'.slots = d.slots) (e : Emission) (x : Site) (k : ItemKind) (due : Due) :
    e.leave x d' k due = e.leave x d k due := by
  simp only [Emission.leave, itemNumber_congr h]

theorem discardItem_gap (x : Site) (g : GapFrame) (due : Due) (st : Stage) (sub : Nat) (f : Fate) (d : Device) :
    discardItem x ⟨.gap g, due, st⟩ sub f d
      = (count x .emission sub d).setEm { d.em with lastReleased := some ⟨g.number, due⟩, item := none } := by
  simp only [discardItem, leaveAtDue_eq, em_count]
  rfl

/-- A real frame discarded from service: it is the last released and the gap reference, it is counted and sampled, and its slot is free. -/
theorem discardItem_real (x : Site) (i : SlotNo) (due : Due) (st : Stage) (sub : Nat) (f : Fate) (d : Device) :
    (discardItem x ⟨.real i, due, st⟩ sub f d).em = { d.em.leave x d (.real i) due with item := none }
      ∧ (discardItem x ⟨.real i, due, st⟩ sub f d).slots = d.slots.set i Record.empty
      ∧ (discardItem x ⟨.real i, due, st⟩ sub f d).counters = (sample x false (count x .emission sub d)).counters
      ∧ d.Within [.em, .slots, .arb, .splice, .asrun, .counters, .ports] (discardItem x ⟨.real i, due, st⟩ sub f d) := by
  have hcount := count_within x d .emission sub
  have hslots : (count x .emission sub d).slots = d.slots := hcount.slots_eq (by decide)
  have hleave : leaveAtDue x ⟨.real i, due, st⟩ (count x .emission sub d)
      = (count x .emission sub d).setEm (d.em.leave x d (.real i) due) := by
    rw [leaveAtDue_eq, em_count, Emission.leave_congr hslots]
  have hsample := sample_within x ((count x .emission sub d).setEm (d.em.leave x d (.real i) due)) false
  have hend := endFrame_within x (sample x false ((count x .emission sub d).setEm (d.em.leave x d (.real i) due))) f i
  have hall : d.Within [.em, .slots, .arb, .splice, .asrun, .counters, .ports]
      (endFrame x f i (sample x false ((count x .emission sub d).setEm (d.em.leave x d (.real i) due)))) :=
    (((hcount.mono (by decide)).trans ((setEm_within _ _).mono (by decide))).trans (hsample.mono (by decide))).trans (hend.mono (by decide))
  simp only [discardItem, hleave]
  refine ⟨?_, ?_, ?_, hall.trans ((setEm_within _ _).mono (by decide))⟩
  · rw [Device.setEm_em, hend.em_eq (by decide), hsample.em_eq (by decide), Device.setEm_em]
  · rw [Device.setEm_slots, slots_endFrame, hsample.slots_eq (by decide), Device.setEm_slots, hslots]
  · rw [Device.setEm_counters, hend.counters_eq (by decide)]
    refine counters_sample_congr ?_ ?_ (slotsBusy_congr ?_) x false
    · exact Device.setEm_counters ..
    · rw [Device.setEm_em, em_count]
      rfl
    · exact Device.setEm_slots ..

/-! ### Waiting items (R78, R82) -/

theorem dropWaiting_of_no_wait {d : Device} (h : ∀ k due, d.em.item ≠ some ⟨k, due, .waiting⟩) (x : Site) (late : Due → Bool) :
    dropWaiting x late d = d := by
  unfold dropWaiting
  split
  · next k due hitem => exact absurd hitem (h k due)
  · rfl

/-- An item that waits within its tolerance, or in FREE_RUN, goes on waiting. -/
theorem dropWaiting_of_in_time {d : Device} {k : ItemKind} {due : Due} {x : Site} {late : Due → Bool}
    (hitem : d.em.item = some ⟨k, due, .waiting⟩) (h : x.timing.mode = .freeRun ∨ late due = false) : dropWaiting x late d = d := by
  have hkeep : (x.timing.mode == .sfnStrict && late due) = false := by
    rcases h with h | h <;> simp [h]
  simp only [dropWaiting, hitem, hkeep, Bool.false_eq_true, if_false]

theorem dropWaiting_of_late {d : Device} {k : ItemKind} {due : Due} {x : Site} {late : Due → Bool}
    (hitem : d.em.item = some ⟨k, due, .waiting⟩) (hmode : x.timing.mode = .sfnStrict) (hlate : late due = true) :
    dropWaiting x late d = serveItems x (discardItem x ⟨k, due, .waiting⟩ 2 .dropped d) := by
  simp only [dropWaiting, hitem, hmode, hlate, beq_self_eq_true, Bool.and_self, if_true]

/-- What a waiting item that is dropped leaves behind, with the credits as they are. -/
theorem dropWaiting_dropped {d : Device} {k : ItemKind} {due : Due} {x : Site} {late : Due → Bool}
    (hitem : d.em.item = some ⟨k, due, .waiting⟩) (hmode : x.timing.mode = .sfnStrict) (hlate : late due = true)
    (hgaps : ∀ g gs, d.em.gaps = g :: gs → arrived x.tb g.due 0 = false)
    (hhead : ∀ i due, headDue d = some (i, due) → arrived x.tb due 0 = false) :
    dropWaiting x late d = discardItem x ⟨k, due, .waiting⟩ 2 .dropped d := by
  rw [dropWaiting_of_late hitem hmode hlate]
  cases k with
  | gap g =>
    rw [discardItem_gap]
    refine serveItems_of_nothing_due rfl hgaps (fun i due' h => hhead i due' ?_)
    obtain ⟨rest, hbuf, hdue⟩ := headDue_eq_some h
    have hslots : (count x .emission 2 d).slots = d.slots := slots_count x _ _ d
    refine headDue_of_buffer hbuf ?_
    rw [← hslots]
    exact hdue
  | real slot =>
    obtain ⟨hem, hslots, _, _⟩ := discardItem_real x slot due .waiting 2 .dropped d
    refine serveItems_of_nothing_due (by rw [hem]) (fun g gs h => hgaps g gs ?_) (fun i due' h => hhead i due' ?_)
    · rw [hem] at h
      exact h
    · exact headDue_of_freed (by rw [hem]; rfl) hslots h

/-! ### Items that begin to be sent (R78, R79, R85) -/

/-- With a burst in progress a request waits, and nothing is counted. -/
theorem ask_of_busy {d : Device} (hbusy : d.arb.current.isSome = true) (x : Site) (r : Requestor) (t : Target) :
    d.Within [.arb] (ask x r t d) := by
  unfold ask
  split
  · exact .refl _ d
  · split
    · next hidle => simp [hidle] at hbusy
    · exact setArb_within d _

/-- The item in service asks for its next position, or for nothing. -/
theorem askEmit_cases (x : Site) (d : Device) : askEmit x d = d ∨ ∃ t, askEmit x d = ask x .emit t d := by
  unfold askEmit
  split
  · split
    · split
      · exact .inr ⟨_, rfl⟩
      · exact .inl rfl
    · exact .inl rfl
  · exact .inl rfl

theorem askEmit_within (x : Site) (d : Device) : d.Within [.arb, .counters, .ports] (askEmit x d) := by
  rcases askEmit_cases x d with h | ⟨t, h⟩
  · rw [h]
    exact .refl _ d
  · rw [h]
    exact ask_within x d .emit t

theorem askEmit_of_busy {d : Device} (hbusy : d.arb.current.isSome = true) (x : Site) : d.Within [.arb] (askEmit x d) := by
  rcases askEmit_cases x d with h | ⟨t, h⟩
  · rw [h]
    exact .refl _ d
  · rw [h]
    exact ask_of_busy hbusy x .emit t

theorem startReports_within (x : Site) (k : ItemKind) (d : Device) : d.Within [.splice, .asrun, .counters, .ports] (startReports x k d) := by
  cases k with
  | gap g => exact .refl _ d
  | real slot =>
    exact (((count_within x d _ _).mono (by decide)).trans ((reportStart_within x _ _).mono (by decide))).trans
      ((sample_within x _ _).mono (by decide))

/-- A real frame that begins to be sent is counted and sampled. -/
theorem counters_startReports_real (x : Site) (slot : SlotNo) (d : Device) :
    (startReports x (.real slot) d).counters = (sample x true (count x .emission 0 d)).counters := by
  have hreport := reportStart_within x (count x .emission 0 d) d.slots[slot]
  refine counters_sample_congr (hreport.counters_eq (by decide)) ?_ (slotsBusy_congr (hreport.slots_eq (by decide))) x true
  rw [hreport.em_eq (by decide)]

/-- The emission unit once an item has begun to be sent. -/
def Emission.begin (e : Emission) (x : Site) (d : Device) (k : ItemKind) (due : Due) : Emission :=
  { e.leave x d k due with credits := e.credits - 1, item := some ⟨k, due, .sending 0⟩, output := e.output ++ [itemMarker d k] }

theorem beginSending_gap (x : Site) (g : GapFrame) (due : Due) (st : Stage) (d : Device) :
    beginSending x ⟨.gap g, due, st⟩ d = d.setEm (d.em.begin x d (.gap g) due) := rfl

theorem beginSending_real (x : Site) (i : SlotNo) (due : Due) (st : Stage) (d : Device) :
    (beginSending x ⟨.real i, due, st⟩ d).em = d.em.begin x d (.real i) due
      ∧ d.Within [.em, .arb, .splice, .asrun, .counters, .ports] (beginSending x ⟨.real i, due, st⟩ d)
      ∧ (d.arb.current.isSome = true →
        (beginSending x ⟨.real i, due, st⟩ d).counters = (sample x true (count x .emission 0 d)).counters) := by
  have hreports := startReports_within x (.real i) d
  have hcounters := counters_startReports_real x i d
  have hbegin : beginSending x ⟨.real i, due, st⟩ d
      = askEmit x ((startReports x (.real i) d).setEm (d.em.begin x d (.real i) due)) := by
    simp only [beginSending, leaveAtDue_eq, hreports.em_eq (by decide), Emission.leave_congr (hreports.slots_eq (by decide)),
      Device.setEm_em]
    simp only [itemMarker, Device.setEm_slots, hreports.slots_eq (by decide)]
    rfl
  have hask := askEmit_within x ((startReports x (.real i) d).setEm (d.em.begin x d (.real i) due))
  rw [hbegin]
  refine ⟨hask.em_eq (by decide), ((hreports.mono (by decide)).trans ((setEm_within _ _).mono (by decide))).trans (hask.mono (by decide)),
    fun hbusy => ?_⟩
  rw [(askEmit_of_busy (by rw [Device.setEm_arb, hreports.arb_eq (by decide)]; exact hbusy) x).counters_eq (by decide),
    Device.setEm_counters, hcounters]

/-! ### Credits (R78, R82) -/

section Credit

variable {s : State} {d : Device} (hdrop : dropWaiting s.site (fun due => passed s.site.tb due s.site.timing.tolerance) s.dev = d)

include hdrop

theorem exec_creditReturn_full (hfull : s.site.timing.credits ≤ d.em.credits) :
    exec .creditReturn s = .next (s.setDev (count s.site .emission 5 d)) := by
  change execCreditReturn s = _
  simp only [execCreditReturn, hdrop, hfull, if_true]

theorem exec_creditReturn_waiting {k : ItemKind} {due : Due} (hlow : d.em.credits < s.site.timing.credits)
    (hitem : d.em.item = some ⟨k, due, .waiting⟩) :
    exec .creditReturn s
      = .next (s.setDev (beginSending s.site ⟨k, due, .waiting⟩ (d.setEm { d.em with credits := d.em.credits + 1 }))) := by
  change execCreditReturn s = _
  simp only [execCreditReturn, hdrop, Nat.not_le.mpr hlow, if_false, hitem]

theorem exec_creditReturn_unclaimed (hlow : d.em.credits < s.site.timing.credits) (hitem : ∀ k due, d.em.item ≠ some ⟨k, due, .waiting⟩) :
    exec .creditReturn s = .next (s.setDev (d.setEm { d.em with credits := d.em.credits + 1 })) := by
  change execCreditReturn s = _
  simp only [execCreditReturn, hdrop, Nat.not_le.mpr hlow, if_false]

end Credit

/-- Settles O55: what becomes of a waiting item, and then of the credit. -/
theorem creditsAndWaits : Obligations.CreditsAndWaits := by
  intro s waits nothingDue dropped
  have hin_time : ∀ k due, waits k due → dropWaiting s.site (fun due => passed s.site.tb due s.site.timing.tolerance) s.dev = s.dev :=
    fun k due hwait => dropWaiting_of_in_time hwait.1 hwait.2
  refine ⟨fun hno hfull => exec_creditReturn_full (dropWaiting_of_no_wait hno _ _) hfull,
    fun hno hlow => exec_creditReturn_unclaimed (dropWaiting_of_no_wait hno _ _) hlow hno, fun g due hlow hwait => ?gap,
    fun i due hlow hwait => ?real, fun k due hmode hitem hnothing => ?late, fun hmode => ?free⟩
  case gap =>
    rw [exec_creditReturn_waiting (hin_time _ _ hwait) hlow hwait.1, beginSending_gap]
    rfl
  case real =>
    rw [exec_creditReturn_waiting (hin_time _ _ hwait) hlow hwait.1]
    obtain ⟨hem, hwithin, hcounters⟩ :=
      beginSending_real s.site i due .waiting (s.dev.setEm { s.dev.em with credits := s.dev.em.credits + 1 })
    refine ⟨_, nextCandidate s.site due, rfl, hem, fun hbusy => ?_, hwithin.slots_eq (by decide), hwithin.mem_eq (by decide),
      hwithin.sel_eq (by decide), rfl⟩
    refine (hcounters hbusy).trans (counters_sample_congr (counters_count_congr (by rfl) _ _ _) ?_ (slotsBusy_congr ?_) _ _)
    · rw [em_count, em_count]
      rfl
    · rw [slots_count, slots_count]
      rfl
  case late =>
    have hhead : ∀ i due, headDue s.dev = some (i, due) → arrived s.site.tb due 0 = false := by
      intro i due h
      obtain ⟨rest, hbuf, hdue⟩ := headDue_eq_some h
      exact hnothing.2 i rest due hbuf hdue
    refine ⟨fun hlate => ?_, fun hlate hlow => ?_⟩
    · refine ⟨s.setDev (dropWaiting s.site (fun due => arrived s.site.tb due s.site.timing.tolerance) s.dev), rfl, ?_⟩
      rw [dropWaiting_dropped hitem hmode hlate hnothing.1 hhead]
      cases k with
      | gap g =>
        rw [discardItem_gap]
        exact ⟨rfl, slots_count .., rfl, rfl⟩
      | real slot =>
        obtain ⟨hem, hslots, hcounters, hwithin⟩ := discardItem_real s.site slot due .waiting 2 .dropped s.dev
        exact ⟨nextCandidate s.site due, hem, hslots, hcounters, hwithin.mem_eq (by decide), rfl⟩
    · have hdrop := dropWaiting_dropped (late := fun due => passed s.site.tb due s.site.timing.tolerance) hitem hmode hlate hnothing.1 hhead
      cases k with
      | gap g =>
        rw [discardItem_gap] at hdrop
        exact ⟨_, exec_creditReturn_unclaimed hdrop hlow (by simp), rfl, slots_count .., rfl, rfl⟩
      | real slot =>
        obtain ⟨hem, hslots, hcounters, hwithin⟩ := discardItem_real s.site slot due .waiting 2 .dropped s.dev
        refine ⟨_, exec_creditReturn_unclaimed hdrop (by rw [hem]; exact hlow) (by simp [hem]), nextCandidate s.site due, ?_, hslots,
          hcounters, hwithin.mem_eq (by decide), rfl⟩
        rw [State.setDev_dev, Device.setEm_em, hem]
        rfl
  case free =>
    change Host.Outcome.next (s.setDev (dropWaiting s.site _ s.dev)) = _
    by_cases hwait : ∃ k due, s.dev.em.item = some ⟨k, due, .waiting⟩
    · obtain ⟨k, due, hitem⟩ := hwait
      rw [dropWaiting_of_in_time hitem (.inl hmode)]
      rfl
    · rw [dropWaiting_of_no_wait (fun k due hitem => hwait ⟨k, due, hitem⟩)]
      rfl

/-! ### Cells sent (R79, R80, R84, R96) -/

theorem exec_emitBurstComplete {slot : SlotNo} {pl : Fin 256} {keep : Bool} {s : State}
    (hcur : s.dev.arb.current = some ⟨.emit, .slot slot pl, keep⟩) :
    exec .emitBurstComplete s = .next (s.setDev (
      if keep then
        deliverCell s.site slot (pl.val + 1) (memReadRun s.dev.mem (slotAddress slot pl) 176) (endBurst s.site s.dev)
      else askEmit s.site (endBurst s.site s.dev))) := by
  change execEmitBurstComplete s = _
  simp only [execEmitBurstComplete, hcur]
  rfl

/-- The device with its output port free. -/
def Device.clearPort (d : Device) : Device := d.setEm { d.em with output := [] }

theorem exec_outputCellSent {c : Bytes} {s : State} (hout : s.dev.em.output = [c]) (hheld : s.dev.em.held = none) :
    exec .outputCellSent s = .next (s.setDev (
      let d := s.dev.clearPort
      if itemDone d then endSending s.site d else askEmit s.site d)) := by
  have hkept : releaseHeld s.site s.dev.clearPort = s.dev.clearPort := by
    unfold releaseHeld
    split
    · next heq => cases heq.symm.trans hheld
    · rfl
  have hport : s.dev.setEm { s.dev.em with output := [] } = s.dev.clearPort := rfl
  change execOutputCellSent s = _
  simp only [execOutputCellSent, hout, hport, hkept]

/-- An item being sent is done once its cells are on a free port. -/
theorem itemDone_of_sent {d : Device} {k : ItemKind} {due : Due} {n : Nat} (hitem : d.em.item = some ⟨k, due, .sending n⟩)
    (hheld : d.em.held = none) : itemDone d.clearPort = decide (itemCells d k ≤ n) := by
  simp only [itemDone, Device.clearPort, Device.setEm_em, hitem, hheld, List.isEmpty_nil, Option.isNone_none, Bool.and_true]
  rfl

/-- The header of a written position takes its SID and qualifier from the header list, and its payload is sent as stored. -/
theorem emitted_of_written {r : Record} {pos : Nat} {e : HeaderEntry} (hentry : r.headers.find? (fun e => e.pos == pos) = some e)
    (hlate : ∀ o ∈ r.headers, o.pos = pos → o.lateNull = e.lateNull) (hwritten : e.lateNull = false) (cell : Bytes) :
    emittedHeader r pos cell = { parseHeader cell with sid := e.sid, qual := e.qual }
      ∧ emittedPayload r pos cell = payloadOf cell := by
  have hnone : r.headers.any (fun e => e.pos == pos && e.lateNull) = false := by
    rw [List.any_eq_false]
    intro o ho
    by_cases hpos : o.pos = pos
    · simp [hlate o ho hpos, hwritten]
    · simp [hpos]
  constructor
  · simp only [emittedHeader, hentry, hwritten, Bool.false_eq_true, if_false]
  · simp only [emittedPayload, hnone, Bool.false_eq_true, if_false]

section Deliver

variable {slot : SlotNo} {due : Due} {n pos : Nat} {e : HeaderEntry} {cell : Bytes} {d : Device}
  (hitem : d.em.item = some ⟨.real slot, due, .sending n⟩) (hout : d.em.output = [])
  (hentry : (d.slots[slot]).headers.find? (fun e => e.pos == pos) = some e)
  (hlate : ∀ o ∈ (d.slots[slot]).headers, o.pos = pos → o.lateNull = e.lateNull) (x : Site)

include hitem hout

/-- A cell delivered to a free port goes on it, as the header and payload that the position gives. -/
theorem deliverCell_eq {h : Header} {em : Emission}
    (hput : (if (emittedHeader d.slots[slot] pos cell).qual == .payload && restamped x (emittedHeader d.slots[slot] pos cell).sid then
      restampHeader (emittedHeader d.slots[slot] pos cell) d.em else (emittedHeader d.slots[slot] pos cell, d.em)) = (h, em))
    (hsame : em = { d.em with restamp := em.restamp }) :
    deliverCell x slot pos cell d = d.setEm { d.em with
      output := [formHeader h ++ emittedPayload d.slots[slot] pos cell], held := none
      item := some ⟨.real slot, due, .sending (n + 1)⟩, restamp := em.restamp } := by
  have hempty : d.em.output.isEmpty = true := by rw [hout]; rfl
  have hemOut : em.output = [] := by rw [hsame]; exact hout
  have hemItem : em.item = some ⟨.real slot, due, .sending n⟩ := by rw [hsame]; exact hitem
  simp only [deliverCell, hempty, if_true, putCell, hput, bumpSent, Device.setEm_em, hemItem, hemOut, List.nil_append]
  rw [hsame]
  rfl

include hentry

/-- A position that late fill left unwritten is sent as a null cell. -/
theorem deliverCell_late (hnull : e.lateNull = true) :
    deliverCell x slot pos cell d = d.setEm { d.em with
      output := [nullCell pos], held := none, item := some ⟨.real slot, due, .sending (n + 1)⟩ } := by
  have hheader : emittedHeader d.slots[slot] pos cell = nullHeader pos := by simp only [emittedHeader, hentry, hnull, if_true]
  have hpayload : emittedPayload d.slots[slot] pos cell = List.replicate Config.payloadBytes 0 := by
    have hany : (d.slots[slot]).headers.any (fun e => e.pos == pos && e.lateNull) = true :=
      List.any_eq_true.mpr ⟨e, List.mem_of_find?_eq_some hentry, by simpa [hnull] using List.find?_some hentry⟩
    simp only [emittedPayload, hany, if_true]
  rw [deliverCell_eq hitem hout (cell := cell) (pos := pos) (h := nullHeader pos) (em := d.em) x ?_ rfl, hpayload]
  · rfl
  · rw [hheader]
    rfl

include hlate

/-- A PAYLOAD cell on a restamped SID takes the SID's counter and fresh flag. -/
theorem deliverCell_restamped (hwritten : e.lateNull = false) (hstamp : e.qual = .payload ∧ restamped x e.sid = true) {i : Fin 4095}
    (hsid : e.sid.toNat = i.val) :
    deliverCell x slot pos cell d = d.setEm { d.em with
      output := [formHeader { parseHeader cell with
        sid := e.sid, qual := e.qual, cont := (d.em.restamp[i]).counter, disc := (d.em.restamp[i]).fresh } ++ payloadOf cell]
      held := none, item := some ⟨.real slot, due, .sending (n + 1)⟩
      restamp := d.em.restamp.set i ⟨(d.em.restamp[i]).counter + 1, false⟩ } := by
  obtain ⟨hheader, hpayload⟩ := emitted_of_written hentry hlate hwritten cell
  have hindex : finOf 4095 e.sid.toNat = some i := by rw [hsid, finOf_val]
  rw [deliverCell_eq hitem hout (cell := cell) (pos := pos)
    (h := { parseHeader cell with sid := e.sid, qual := e.qual, cont := (d.em.restamp[i]).counter, disc := (d.em.restamp[i]).fresh })
    (em := { d.em with restamp := d.em.restamp.set i ⟨(d.em.restamp[i]).counter + 1, false⟩ }) x ?_ rfl, hpayload]
  rw [hheader]
  simp [hstamp.1, hstamp.2, restampHeader, hindex]

theorem deliverCell_unstamped (hwritten : e.lateNull = false) (hstamp : e.qual ≠ .payload ∨ restamped x e.sid = false) :
    deliverCell x slot pos cell d = d.setEm { d.em with
      output := [formHeader { parseHeader cell with sid := e.sid, qual := e.qual } ++ payloadOf cell], held := none
      item := some ⟨.real slot, due, .sending (n + 1)⟩ } := by
  obtain ⟨hheader, hpayload⟩ := emitted_of_written hentry hlate hwritten cell
  rw [deliverCell_eq hitem hout (cell := cell) (pos := pos) (h := { parseHeader cell with sid := e.sid, qual := e.qual }) (em := d.em) x ?_ rfl,
    hpayload]
  rw [hheader]
  rcases hstamp with h | h <;> simp [h]

end Deliver

theorem finalFate_of_no_marks {r : Record} (h : r.marks = []) (x : Site) (f : Fate) (d : Device) : finalFate x f r d = d := by
  rw [finalFate, h]
  rfl

theorem endSending_of_unmarked {slot : SlotNo} {due : Due} {st : Stage} {d : Device} (hitem : d.em.item = some ⟨.real slot, due, st⟩)
    (hmarks : (d.slots[slot]).marks = []) (x : Site) :
    endSending x d = serveItems x ((freeSlot slot d).setEm { d.em with item := none }) := by
  simp only [endSending, hitem, endFrame, finalFate_of_no_marks hmarks]
  rfl

theorem endSending_gap {g : GapFrame} {due : Due} {st : Stage} {d : Device} (hitem : d.em.item = some ⟨.gap g, due, st⟩) (x : Site) :
    endSending x d = serveItems x (d.setEm { d.em with item := none }) := by
  simp only [endSending, hitem]

/-- Settles O57: the cell that a position gives, then what follows a cell that has left. -/
theorem cellsAreSent : Obligations.CellsAreSent := by
  intro s nothingDue
  refine ⟨?emit, fun t hcur hslot hitem => ?discarded, fun slot pl due c hitem hout hheld hmore => ?next,
    fun slot due n c hitem hout hheld hlast hmarks hnothing => ?ended, fun g due n c hitem hout hheld hnothing => ?gap⟩
  case emit =>
    intro slot pl due n e i hcur hitem hout hentry hlate hsid cell h sent
    have hwithin := endBurst_within s.site s.dev
    have hem : (endBurst s.site s.dev).em = s.dev.em := hwithin.em_eq (by decide)
    have hslots : (endBurst s.site s.dev).slots = s.dev.slots := hwithin.slots_eq (by decide)
    have hitem' : (endBurst s.site s.dev).em.item = some ⟨.real slot, due, .sending n⟩ := hem ▸ hitem
    have hout' : (endBurst s.site s.dev).em.output = [] := hem ▸ hout
    have hsent : ∀ em, deliverCell s.site slot (pl.val + 1) cell (endBurst s.site s.dev) = (endBurst s.site s.dev).setEm em →
        exec .emitBurstComplete s = .next (s.setDev { endBurst s.site s.dev with em := em }) := by
      intro em h
      rw [exec_emitBurstComplete hcur, if_pos rfl]
      exact congrArg (fun d => Host.Outcome.next (s.setDev d)) h
    rw [← hslots] at hentry hlate
    refine ⟨fun hnull => hsent _ ?_, fun hwritten => ⟨fun hstamp => hsent _ ?_, fun hstamp => hsent _ ?_⟩⟩
    · rw [deliverCell_late hitem' hout' hentry _ hnull, hem]
    · rw [deliverCell_restamped hitem' hout' hentry hlate _ hwritten hstamp hsid, hem]
    · rw [deliverCell_unstamped hitem' hout' hentry hlate _ hwritten hstamp, hem]
  case discarded =>
    obtain ⟨slot, pl, rfl⟩ := hslot
    have hnone : askEmit s.site (endBurst s.site s.dev) = endBurst s.site s.dev := by
      simp only [askEmit, (endBurst_within s.site s.dev).em_eq (by decide), hitem]
    rw [exec_emitBurstComplete hcur, if_neg (by decide), hnone]
  case next =>
    have hmoreCells : itemDone s.dev.clearPort = false := by
      rw [itemDone_of_sent hitem hheld]
      exact decide_eq_false (Nat.not_le.mpr hmore)
    have hask : askEmit s.site s.dev.clearPort
        = ask s.site .emit (.slot slot pl) s.dev.clearPort := by
      simp only [askEmit, Device.clearPort, Device.setEm_em, hitem, Device.setEm_slots, hmore, hheld, slotPlace_eq (rfl : pl.val + 1 = pl.val + 1)]
      simp
    rw [exec_outputCellSent hout hheld]
    dsimp only
    rw [hmoreCells, if_neg (by decide), hask]
    rfl
  case ended =>
    have hdone : itemDone s.dev.clearPort = true := by
      rw [itemDone_of_sent hitem hheld]
      exact decide_eq_true (Nat.le_of_eq hlast)
    rw [exec_outputCellSent hout hheld]
    dsimp only
    rw [hdone, if_pos rfl, endSending_of_unmarked (d := s.dev.clearPort) hitem hmarks]
    rw [serveItems_of_nothing_due (x := s.site)]
    · exact ⟨_, rfl, rfl, rfl, rfl⟩
    · rfl
    · exact hnothing.1
    · intro i due' h
      have hhead := headDue_of_freed (d := s.dev) (slot := slot) (by rfl) (by rfl) h
      obtain ⟨rest, hbuf, hdue⟩ := headDue_eq_some hhead
      exact hnothing.2 i rest due' hbuf hdue
  case gap =>
    have hdone : itemDone s.dev.clearPort = true := by
      rw [itemDone_of_sent hitem hheld]
      exact decide_eq_true (Nat.zero_le n)
    rw [exec_outputCellSent hout hheld]
    dsimp only
    rw [hdone, if_pos rfl, endSending_gap (d := s.dev.clearPort) hitem]
    rw [serveItems_of_nothing_due (x := s.site)]
    · rfl
    · rfl
    · exact hnothing.1
    · intro i due' h
      obtain ⟨rest, hbuf, hdue⟩ := headDue_eq_some h
      exact hnothing.2 i rest due' hbuf hdue

end Sys2Proof.Machine
end

section
/-! PROOFS. The completion of a LOAD burst (R92, R109, R112, R113). -/

namespace Sys2Proof.Machine

theorem exec_loadBurstComplete {b : BlockNo} {i : Fin 4096} {cell : Bytes} {keep : Bool} {s : State}
    (hcur : s.dev.arb.current = some ⟨.load, .block b i cell, keep⟩) :
    exec .loadBurstComplete s = .next (s.setDev (askLoad s.site (endBurst s.site
      (if keep then loadCellDone s.site (s.dev.store (.block b i cell)) else dropDeadEntry (s.dev.store (.block b i cell)))))) := by
  change execLoadBurstComplete s = _
  simp only [execLoadBurstComplete, hcur]

/-- The device once a load's cell is counted and digested (R109). -/
def Device.loadCell (d : Device) (e : LoadEntry) (rest : List LoadEntry) (y : LoadCtx) (place : PlaceNo) (c : ClipRecord) : Device :=
  d.setCat { d.cat with
    fifo := rest
    ctxs := d.cat.ctxs.set e.ctx (some { y with digest := frameCheckMore y.digest e.cell })
    places := d.cat.places.set place (some { c with loaded := c.loaded + 1 }) }

section Done

variable {e : LoadEntry} {rest : List LoadEntry} {y : LoadCtx} {place : PlaceNo} {c : ClipRecord} {d : Device}
  (hfifo : d.cat.fifo = e :: rest) (hctx : d.cat.ctxs[e.ctx] = some y) (hfind : findClip y.clip d = some place)
  (hplace : d.cat.places[place] = some c) (x : Site)

include hfind hplace

/-- The clip is found where it was, with one cell more. -/
theorem findClip_loadCell : findClip y.clip (d.loadCell e rest y place c) = some place :=
  (findClip_set_place (c' := { c with loaded := c.loaded + 1 }) hplace rfl rfl).trans hfind

omit hfind hplace in
theorem places_loadCell : (d.loadCell e rest y place c).cat.places[place] = some { c with loaded := c.loaded + 1 } := by
  simp [Device.loadCell]

include hfifo hctx

theorem loadCellDone_eq :
    loadCellDone x d = if c.loaded + 1 = c.length then
        finishLoad x e.ctx { y with digest := frameCheckMore y.digest e.cell } (d.loadCell e rest y place c)
      else d.loadCell e rest y place c := by
  have hcounted : updClip y.clip (fun r => { r with loaded := r.loaded + 1 })
      (setCtx e.ctx (some { y with digest := frameCheckMore y.digest e.cell }) (d.setCat { d.cat with fifo := rest }))
      = d.loadCell e rest y place c := updClip_of_place (d := setCtx e.ctx _ (d.setCat { d.cat with fifo := rest })) hfind hplace _
  simp only [loadCellDone, hfifo, Device.setCat_cat, hctx, hcounted,
    clipRecord_of_place (findClip_loadCell hfind hplace) places_loadCell]

end Done

/-- Settles O58: the effect of the burst, and the end of the load where it was the last. -/
theorem loadBurstWrites : Obligations.LoadBurstWrites := by
  intro b i e rest s hfifo mem
  refine ⟨fun y place c hcur hctx hfind hplace hmore => ?more, fun y place c hcur hctx hfind hplace hlast => ?last, fun hcur hdead => ?dead⟩
  case more =>
    rw [exec_loadBurstComplete hcur, if_pos rfl,
      loadCellDone_eq (d := s.dev.store (.block b i e.cell)) hfifo hctx hfind hplace, if_neg (Nat.ne_of_lt hmore)]
    rfl
  case last =>
    rw [exec_loadBurstComplete hcur, if_pos rfl,
      loadCellDone_eq (d := s.dev.store (.block b i e.cell)) hfifo hctx hfind hplace, if_pos hlast, finishLoad,
      updClip_of_place (findClip_loadCell (d := s.dev.store (.block b i e.cell)) hfind hplace) places_loadCell]
    simp only [setPlace, setCtx, Device.loadCell, Device.setCat, Vector.set_set]
    rfl
  case dead =>
    rw [exec_loadBurstComplete hcur, if_neg (by decide)]
    have hstored : (s.dev.store (.block b i e.cell)).cat.fifo = e :: rest := hfifo
    simp only [dropDeadEntry, hstored, hdead, Bool.false_eq_true, if_false]
    rfl

end Sys2Proof.Machine
end

section
/-! PROOFS. The due frame: what becomes of the head of the release buffer at its due instant, and late fill (R77 to R81, R150). -/

namespace Sys2Proof.Machine

/-! ### A frame alone in the buffer -/

theorem serveLoop_of_item {d : Device} {i : Item} (h : d.em.item = some i) (x : Site) (n : Nat) : serveLoop x n d = d := by
  cases n with
  | zero => rfl
  | succ n => simp only [serveLoop, h]

theorem serveLoop_setEm {d : Device} {e : Emission} {i : Item} (h : e.item = some i) (x : Site) (n : Nat) :
    serveLoop x n (d.setEm e) = d.setEm e := serveLoop_of_item (i := i) ((congrArg Emission.item (Device.setEm_em d e)).trans h) x n

theorem serveLoop_of_empty {d : Device} (hgaps : d.em.gaps = []) (hbuf : d.em.buffer = []) (x : Site) (n : Nat) : serveLoop x n d = d := by
  cases n with
  | zero => rfl
  | succ n =>
    have hhead : headDue d = none := by simp only [headDue, hbuf]
    unfold serveLoop
    split
    · rfl
    · simp only [hgaps, hhead]

/-- The device with the head of the release buffer taken from it, and its slot EMITTING (R77). -/
def Device.takeHead (d : Device) (slot : SlotNo) : Device := setSlotState slot .emitting (d.setEm { d.em with buffer := d.em.buffer.erase slot })

section Alone

variable {slot : SlotNo} {due : Due} {s : State} (hitem : s.dev.em.item = none) (hgaps : s.dev.em.gaps = [])
  (hbuf : s.dev.em.buffer = [slot]) (hdue : (s.dev.slots[slot]).due = some due) (harr : arrived s.site.tb due 0 = true)

include hitem hgaps hbuf hdue harr

/-- The only item due is taken. -/
theorem exec_dueInstant_alone : exec .dueInstant s = .next (s.setDev (serveLoop s.site 1 (takeFrame s.site slot due s.dev))) := by
  change Host.Outcome.next (s.setDev (serveItems s.site s.dev)) = _
  have hhead : headDue s.dev = some (slot, due) := headDue_of_buffer hbuf hdue
  have hfuel : s.dev.em.buffer.length + s.dev.em.gaps.length + 1 = 2 := by simp [hbuf, hgaps]
  rw [serveItems, hfuel, serveLoop]
  simp only [hitem, hgaps, hhead, harr, if_true]

end Alone

theorem takeFrame_of_queued {slot : SlotNo} {d : Device} (hstate : (d.slots[slot]).state = .queued) (x : Site) (due : Due) :
    takeFrame x slot due d = handleItem x ⟨.real slot, due, .waiting⟩ due.instant (d.takeHead slot) := by
  have hno : ((d.slots[slot]).state == .splicing) = false := by rw [hstate]; rfl
  simp only [takeFrame, hno, Bool.false_eq_true, if_false]
  rfl

/-! ### The item in service handled by the output mode (R77, R78) -/

section Handle

variable {x : Site} {d : Device} {i : Item}

theorem handleItem_muted (hmode : outputMode x d = .muted) (at_ : Instant) : handleItem x i at_ d = discardItem x i 3 .muted d := by
  simp only [handleItem, hmode]

theorem handleItem_standby {slot : SlotNo} (hkind : i.kind = .real slot) (hmode : outputMode x d = .standby) (at_ : Instant) :
    handleItem x i at_ d = discardItem x i 0 (.standby at_) d := by
  simp only [handleItem, hmode, hkind]

variable {k : ItemKind} {due : Due} {st : Stage} (hmode : outputMode x d = .onAir)
  (htime : passed x.tb due x.timing.tolerance = false) (at_ : Instant)

include hmode htime

theorem handleItem_sends (hcredit : 0 < d.em.credits) : handleItem x ⟨k, due, st⟩ at_ d = beginSending x ⟨k, due, st⟩ d := by
  simp only [handleItem, hmode, htime, Bool.and_false, Bool.false_eq_true, if_false, hcredit, if_true]

theorem handleItem_waits (hcredit : d.em.credits = 0) :
    handleItem x ⟨k, due, st⟩ at_ d = d.setEm { d.em with item := some ⟨k, due, .waiting⟩ } := by
  simp only [handleItem, hmode, htime, Bool.and_false, Bool.false_eq_true, if_false, hcredit, Nat.lt_irrefl]

end Handle

theorem outputMode_congr {d d' : Device} (h : d'.intakeA = d.intakeA ∧ d'.intakeB = d.intakeB) (x : Site) :
    outputMode x d' = outputMode x d := by
  unfold outputMode muteNoFeed
  rw [h.1, h.2]

/-- A table counts the same once an entry is replaced by one that counts as it did. -/
theorem vcount_set {α : Type} {n : Nat} {v : Vector α n} {q : α → Bool} {i : Fin n} {a : α} (ha : q a = q v[i]) :
    vcount (v.set i a) q = vcount v q := by
  have hmap : ∀ l : List α, l.countP q = (l.map q).count true := fun l => by
    rw [List.count, List.countP_map]
    congr 1
    funext b
    simp
  rw [vcount, vcount, hmap, hmap, Vector.toList_set, List.map_set, ha]
  congr 1
  have hlen : i.val < (v.toList.map q).length := by simp
  have hget : q v[i] = (v.toList.map q)[i.val] := by simp
  rw [hget, List.set_getElem_self]

section TakeHead

variable {slot : SlotNo} {d : Device}

theorem em_takeHead (hbuf : d.em.buffer = [slot]) : (d.takeHead slot).em = { d.em with buffer := [] } := by
  simp [Device.takeHead, setSlotState, Device.updSlot, Device.setEm, hbuf]

theorem slots_takeHead : (d.takeHead slot).slots = d.slots.set slot { d.slots[slot] with state := .emitting } := rfl

theorem slot_takeHead : (d.takeHead slot).slots[slot] = { d.slots[slot] with state := .emitting } := by simp [slots_takeHead]

theorem takeHead_within : d.Within [.em, .slots] (d.takeHead slot) :=
  ((setEm_within d _).mono (by decide)).trans ((updSlot_within _ _ _).mono (by decide))

/-- A busy slot stays busy when its frame becomes EMITTING. -/
theorem slotsBusy_takeHead (hbusy : (d.slots[slot]).state ≠ .free) : slotsBusy (d.takeHead slot) = slotsBusy d := by
  rw [slotsBusy, slots_takeHead]
  refine vcount_set ?_
  have hother : (d.slots[slot].state != .free) = true := by simpa using hbusy
  rw [hother]
  rfl

end TakeHead

/-! ### Late fill (R80, R150, R158) -/

/-- The draft of a programme's break in a frame's mark. -/
def Record.draftOf (r : Record) (p : ProgNo) (d : Device) : Option DraftNo :=
  ((r.markOf p).bind (fun m => getBreak p m.brk d)).bind (·.draft)

/-- One step of the flagging of a frame's drafts. -/
def flagDraft (r : Record) (d : Device) (p : ProgNo) : Device := onDraft (r.draftOf p d) (fun t => { t with lateFill := true }) d

theorem flagLateFill_eq (r : Record) (d : Device) : flagLateFill r d = r.openProgs.foldl (flagDraft r) d := by
  unfold flagLateFill
  congr 1
  funext d p
  unfold flagDraft Record.draftOf
  cases r.markOf p with
  | none => rfl
  | some m => cases hb : getBreak p m.brk d <;> simp [hb, onDraft]

theorem flagDraft_within (r : Record) (d : Device) (p : ProgNo) : d.Within [.asrun] (flagDraft r d p) := onDraft_within d _ _

theorem flagLateFill_within (r : Record) (d : Device) : d.Within [.asrun] (flagLateFill r d) := by
  rw [flagLateFill_eq]
  exact .foldl (fun d p => flagDraft_within r d p) _ d

theorem draftOf_congr {d d' : Device} (h : d'.splice = d.splice) (r : Record) (p : ProgNo) : r.draftOf p d' = r.draftOf p d := by
  unfold Record.draftOf getBreak
  rw [h]

theorem drafts_onDraft_self (n : DraftNo) (f : Draft → Draft) (d : Device) :
    (onDraft (some n) f d).asrun.drafts[n] = (d.asrun.drafts[n]).map f := by
  simp [onDraft]

theorem drafts_onDraft_other {k : Option DraftNo} {n : DraftNo} (h : k ≠ some n) (f : Draft → Draft) (d : Device) :
    (onDraft k f d).asrun.drafts[n] = d.asrun.drafts[n] := by
  cases k with
  | none => rfl
  | some k => exact vmodify_get_other _ (fun heq => h (congrArg some heq.symm)) _

/-- A step flags a draft or leaves it as it is. -/
theorem drafts_flagDraft {r : Record} {d : Device} {p : ProgNo} {n : DraftNo} {y : Draft} (hy : d.asrun.drafts[n] = some y) :
    (flagDraft r d p).asrun.drafts[n] = if r.draftOf p d = some n then some { y with lateFill := true } else some y := by
  split
  · next h => rw [flagDraft, h, drafts_onDraft_self, hy]; rfl
  · next h => rw [flagDraft, drafts_onDraft_other h, hy]

/-- Every draft of a programme of the list is flagged. -/
theorem drafts_foldl_flagDraft {r : Record} {q : ProgNo} {n : DraftNo} {ps : List ProgNo} {d : Device} {y : Draft} (hq : q ∈ ps)
    (hdraft : r.draftOf q d = some n) (hy : d.asrun.drafts[n] = some y) :
    (ps.foldl (flagDraft r) d).asrun.drafts[n] = some { y with lateFill := true } := by
  have hkeep : ∀ (ps : List ProgNo) (d : Device), d.asrun.drafts[n] = some { y with lateFill := true } →
      (ps.foldl (flagDraft r) d).asrun.drafts[n] = some { y with lateFill := true } := by
    intro ps
    induction ps with
    | nil => exact fun _ h => h
    | cons p ps ih =>
      intro d h
      refine ih _ ?_
      rw [drafts_flagDraft h]
      split <;> rfl
  induction ps generalizing d with
  | nil => cases hq
  | cons p ps ih =>
    rw [List.foldl_cons]
    have hstep := drafts_flagDraft (r := r) (p := p) hy
    by_cases hp : r.draftOf p d = some n
    · rw [if_pos hp] at hstep
      exact hkeep ps _ hstep
    · rw [if_neg hp] at hstep
      rcases List.mem_cons.mp hq with rfl | hq
      · exact absurd hdraft hp
      · exact ih hq ((draftOf_congr ((flagDraft_within r d p).splice_eq (by decide)) r q).trans hdraft) hstep

theorem drafts_flagLateFill {r : Record} {q : ProgNo} {m : Mark} {b : Break} {n : DraftNo} {d : Device} {y : Draft} (hq : q ∈ r.openProgs)
    (hmark : r.markOf q = some m) (hbreak : getBreak q m.brk d = some b) (hdraft : b.draft = some n) (hy : d.asrun.drafts[n] = some y) :
    (flagLateFill r d).asrun.drafts[n] = some { y with lateFill := true } := by
  rw [flagLateFill_eq]
  refine drafts_foldl_flagDraft hq ?_ hy
  simp only [Record.draftOf, hmark, Option.bind_some, hbreak, hdraft]

theorem beginLateFill_within (x : Site) (slot : SlotNo) (d : Device) : d.Within [.asrun, .counters, .ports] (beginLateFill x slot d) :=
  ((flagLateFill_within _ d).mono (by decide)).trans ((count_within x _ _ _).mono (by decide))

theorem counters_beginLateFill (x : Site) (slot : SlotNo) (d : Device) : (beginLateFill x slot d).counters = (count x .emission 4 d).counters :=
  counters_count_congr ((flagLateFill_within _ d).counters_eq (by decide)) x _ _

/-- The entries of every position left unwritten are replaced at once. -/
theorem foldl_replaceEntry (left : List WorkItem) (l : List HeaderEntry) :
    left.foldl (fun l w => replaceEntry (lateEntry w.pos) l) l
      = l.map (fun h => if left.any (fun w => w.pos == h.pos) then lateEntry h.pos else h) := by
  induction left generalizing l with
  | nil => simp
  | cons w left ih =>
    rw [List.foldl_cons, ih, replaceEntry, List.map_map]
    refine List.map_congr_left (fun h _ => ?_)
    by_cases hpos : h.pos = w.pos
    · simp [lateEntry, hpos]
    · have hpos' : w.pos ≠ h.pos := fun heq => hpos heq.symm
      simp [lateEntry, hpos, hpos']

/-- The programmes with work left on a frame, where one programme has it all. -/
theorem openProgs_of_one {r : Record} {p : ProgNo} (hleft : r.openItems ≠ []) (hall : ∀ w ∈ r.openItems, w.prog = p) : r.openProgs = [p] := by
  have hany : ∀ q, r.openItems.any (fun w => w.prog == q) = (q == p) := by
    intro q
    obtain ⟨w, hw⟩ := List.exists_mem_of_ne_nil _ hleft
    rw [Bool.eq_iff_iff, List.any_eq_true, beq_iff_eq]
    constructor
    · rintro ⟨v, hv, hq⟩
      exact (beq_iff_eq.mp hq).symm.trans (hall v hv)
    · rintro rfl
      exact ⟨w, hw, beq_iff_eq.mpr (hall w hw)⟩
  have hone : ∀ p : Fin 8, (List.finRange 8).filter (fun q => q == p) = [p] := by decide
  simp only [Record.openProgs, hany, hone]

theorem advanceMany_null {b : Break} (hsource : b.source = .null) (p : ProgNo) (n : Nat) (d : Device) : advanceMany p n b d = (b, d) := by
  induction n with
  | zero => rfl
  | succ n ih =>
    have hstep : advanceSource p b d = (b, d) := by
      unfold advanceSource
      split
      · next h _ => cases hsource.symm.trans h
      · next h _ => cases hsource.symm.trans h
      · rfl
    simp only [advanceMany, hstep, ih]

/-- A break's clip after cells drawn that do not bring it to its end (R149). -/
def Break.drawn (b : Break) (n : Nat) : Break :=
  { b with clipPos := b.clipPos + n, items := updLast (fun i => { i with played := i.played + n }) b.items }

theorem updLast_updLast {α : Type} (f g : α → α) (l : List α) : updLast f (updLast g l) = updLast (fun a => f (g a)) l := by
  induction l with
  | nil => rfl
  | cons a l ih =>
    cases l with
    | nil => rfl
    | cons b l =>
      cases l with
      | nil => rfl
      | cons c l => exact congrArg (a :: ·) ih

theorem updLast_id {α : Type} (l : List α) : updLast (fun a => a) l = l := by
  induction l with
  | nil => rfl
  | cons a l ih =>
    cases l with
    | nil => rfl
    | cons b l => exact congrArg (a :: ·) ih

theorem Break.drawn_zero (b : Break) : b.drawn 0 = b := by
  have hid : updLast (fun i : ClipItem => { i with played := i.played + 0 }) b.items = b.items := updLast_id b.items
  rw [Break.drawn, hid]
  rfl

theorem Break.drawn_one_drawn (b : Break) (n : Nat) : (b.drawn 1).drawn n = b.drawn (n + 1) := by
  simp [Break.drawn, updLast_updLast, Nat.add_assoc, Nat.add_comm 1 n]

theorem advanceSource_within_clip {b : Break} {clip : ClipId} {d : Device} (hsource : b.source = .list) (hplaying : b.playing = some clip)
    (hmore : b.clipPos + 1 < clipLength clip d) (p : ProgNo) : advanceSource p b d = (b.drawn 1, d) := by
  simp only [advanceSource, hsource, hplaying, Nat.not_le.mpr hmore, if_false, Break.drawn]

theorem advanceMany_within_clip {b : Break} {clip : ClipId} {n : Nat} {d : Device} (hsource : b.source = .list)
    (hplaying : b.playing = some clip) (hmore : b.clipPos + n < clipLength clip d) (p : ProgNo) :
    advanceMany p n b d = (b.drawn n, d) := by
  induction n generalizing b with
  | zero => rw [advanceMany, Break.drawn_zero]
  | succ n ih =>
    have hfirst : b.clipPos + 1 < clipLength clip d := by omega
    have hrest : (b.drawn 1).clipPos + n < clipLength clip d := by
      simp only [Break.drawn]
      omega
    simp only [advanceMany, advanceSource_within_clip hsource hplaying hfirst, ih (b := b.drawn 1) hsource hplaying hrest,
      Break.drawn_one_drawn]

/-! ### The only break of a programme -/

theorem Programme.mapBreaks_of_active {g : Programme} {b : Break} (hactive : g.active = some b) (hended : g.ended = [])
    (hclosed : g.closed = []) (f : Break → Break) :
    g.mapBreaks (fun a => if a.id == b.id then f a else a) = { g with active := some (f b) } := by
  simp [Programme.mapBreaks, hactive, hended, hclosed]

theorem closeIfDone_of_no_ended {p : ProgNo} {d : Device} (h : (d.splice.progs[p]).ended = []) (x : Site) (id : Nat) :
    closeIfDone x p id d = d := by
  simp only [closeIfDone, h, List.find?_nil]

section OneBreak

variable {p : ProgNo} {b : Break} {d : Device} (hactive : (d.splice.progs[p]).active = some b)

include hactive

theorem getBreak_of_active : getBreak p b.id d = some b := by
  simp only [getBreak, Programme.find, Programme.breaks, hactive, Option.toList_some, List.cons_append, List.find?_cons, beq_self_eq_true]

variable (hended : (d.splice.progs[p]).ended = []) (hclosed : (d.splice.progs[p]).closed = [])

include hended hclosed

theorem updBreak_of_active (f : Break → Break) :
    updBreak p b.id f d = { d with splice := { d.splice with
      progs := d.splice.progs.set p { d.splice.progs[p] with active := some (f b) } } } := by
  rw [updBreak, Device.updProg, vmodify, Programme.mapBreaks_of_active hactive hended hclosed]

/-- Work that ends for an active break closes nothing. -/
theorem endWork_of_active (x : Site) (close : Bool) :
    endWork x close p b.id d = { d with splice := { d.splice with
      progs := d.splice.progs.set p { d.splice.progs[p] with active := some { b with work := b.work - 1 } } } } := by
  have hset : (d.splice.progs.set p { d.splice.progs[p] with active := some { b with work := b.work - 1 } })[p]
      = { d.splice.progs[p] with active := some { b with work := b.work - 1 } } := by simp
  simp only [endWork, updBreak_of_active hactive hended hclosed]
  split
  · exact closeIfDone_of_no_ended (by rw [hset]; exact hended) x b.id
  · rfl

end OneBreak

/-- The record of a frame once late fill has ended its splice work (R80, R150). -/
def Record.lateFilled (r : Record) (n : Nat) : Record :=
  { r with
    work := r.work.take n
    headers := r.headers.map (fun h => if (r.work.drop n).any (fun w => w.pos == h.pos) then lateEntry h.pos else h) }

theorem Record.markOf_of_one {r : Record} {m : Mark} (h : r.marks = [m]) : r.markOf m.prog = some m := by simp [Record.markOf, h]

theorem Record.openItems_of_cursor {r : Record} {n : Nat} (h : r.cursor = some n) : r.openItems = r.work.drop n := by
  simp only [Record.openItems, h, Option.getD_some]

theorem dropItems_of_one {r : Record} {n : Nat} {p : ProgNo} (hcursor : r.cursor = some n) (hall : ∀ w ∈ r.work.drop n, w.prog = p) :
    dropItems p r = { r with work := r.work.take n } := by
  have hother : (r.work.drop n).filter (fun w => w.prog != p) = [] := by
    rw [List.filter_eq_nil_iff]
    intro w hw
    simp [hall w hw]
  simp only [dropItems, Record.openItems_of_cursor hcursor, hother, hcursor, Option.getD_some, List.append_nil]

theorem updSlot_updSlot (i : SlotNo) (f g : Record → Record) (d : Device) :
    (d.updSlot i f).updSlot i g = { d with slots := d.slots.set i (g (f d.slots[i])) } := by
  simp [Device.updSlot, vmodify]

/-- Late fill of a frame marked for one programme, whose active break draws no clip to its end. -/
theorem lateFillShare_eq {slot : SlotNo} {m : Mark} {b b1 : Break} {n : Nat} {d : Device} (hmarks : (d.slots[slot]).marks = [m])
    (hcursor : (d.slots[slot]).cursor = some n) (hall : ∀ w ∈ (d.slots[slot]).work.drop n, w.prog = m.prog)
    (hactive : (d.splice.progs[m.prog]).active = some b) (hid : b.id = m.brk) (hended : (d.splice.progs[m.prog]).ended = [])
    (hclosed : (d.splice.progs[m.prog]).closed = []) (hid1 : b1.id = b.id)
    (hadvance : ∀ d' : Device, d'.cat = d.cat → advanceMany m.prog ((d.slots[slot]).work.drop n).length b d' = (b1, d')) (x : Site) :
    lateFillShare x slot d m.prog = { d with
      slots := d.slots.set slot ((d.slots[slot]).lateFilled n)
      splice := { d.splice with
        progs := d.splice.progs.set m.prog { d.splice.progs[m.prog] with active := some { b1 with work := b1.work - 1 } } } } := by
  have hleft : (d.slots[slot]).openItems.filter (fun w => w.prog == m.prog) = (d.slots[slot]).work.drop n := by
    rw [Record.openItems_of_cursor hcursor, List.filter_eq_self]
    exact fun w hw => beq_iff_eq.mpr (hall w hw)
  have hrecord : ((d.updSlot slot (dropItems m.prog)).updSlot slot (fun r =>
      { r with headers := ((d.slots[slot]).work.drop n).foldl (fun l w => replaceEntry (lateEntry w.pos) l) r.headers }))
      = { d with slots := d.slots.set slot ((d.slots[slot]).lateFilled n) } := by
    rw [updSlot_updSlot, dropItems_of_one hcursor hall, foldl_replaceEntry]
    rfl
  have hget : getBreak m.prog m.brk { d with slots := d.slots.set slot ((d.slots[slot]).lateFilled n) } = some b := by
    rw [← hid]
    exact getBreak_of_active hactive
  have hb1 : (d.splice.progs.set m.prog { d.splice.progs[m.prog] with active := some b1 })[m.prog]
      = { d.splice.progs[m.prog] with active := some b1 } := by simp
  have hset := updBreak_of_active (d := { d with slots := d.slots.set slot ((d.slots[slot]).lateFilled n) }) hactive hended hclosed
    (fun _ => b1)
  have hwork := endWork_of_active (b := b1) (p := m.prog)
    (d := { d with
      slots := d.slots.set slot ((d.slots[slot]).lateFilled n)
      splice := { d.splice with progs := d.splice.progs.set m.prog { d.splice.progs[m.prog] with active := some b1 } } })
    (by rw [hb1]) (by rw [hb1]; exact hended) (by rw [hb1]; exact hclosed) x true
  have hadv := hadvance { d with slots := d.slots.set slot ((d.slots[slot]).lateFilled n) } rfl
  simp only [lateFillShare, hleft, Record.markOf_of_one hmarks, hrecord, hget, hadv]
  rw [← hid, hset, ← hid1, hwork]
  simp only [hb1, Vector.set_set]

theorem withdrawSplice_eq (q : SlotNo → ProgNo → Bool) (d : Device) : ∃ a, withdrawSplice q d = d.setArb a := by
  unfold withdrawSplice
  split
  · split
    · exact ⟨_, rfl⟩
    · exact ⟨d.arb, rfl⟩
  · exact ⟨d.arb, rfl⟩

theorem askSplice_of_empty {d : Device} (h : d.splice.queue = []) (x : Site) : askSplice x d = d := by simp only [askSplice, h]

/-- Late fill of the only frame of the splice work queue. -/
theorem endLateFill_eq {slot : SlotNo} {p : ProgNo} {d d1 : Device} (hopen : (d.slots[slot]).openProgs = [p]) (x : Site)
    (hshare : lateFillShare x slot d p = d1) (hqueue : d1.splice.queue = [slot]) :
    ∃ a, endLateFill x slot d = { d1 with arb := a, splice := { d1.splice with queue := [] } } := by
  have hleave : leaveSpliceQueue slot d1 = { d1 with splice := { d1.splice with queue := [] } } := by
    simp [leaveSpliceQueue, hqueue]
  obtain ⟨a, ha⟩ := withdrawSplice_eq (fun i _ => i == slot) { d1 with splice := { d1.splice with queue := [] } }
  refine ⟨a, ?_⟩
  rw [endLateFill, hopen, List.foldl_cons, List.foldl_nil, hshare, hleave, ha, askSplice_of_empty (by rfl)]
  rfl

theorem clipLength_congr {d d' : Device} (h : d'.cat = d.cat) (id : ClipId) : clipLength id d' = clipLength id d := by
  unfold clipLength clipRecord findClip
  rw [h]

section SplicingFrame

variable {slot : SlotNo} {d : Device}

/-- The device once the late fill of the head of the buffer has begun. -/
def Device.fillHead (d : Device) (x : Site) (slot : SlotNo) : Device := beginLateFill x slot (d.takeHead slot)

variable (x : Site)

theorem fillHead_within : d.Within [.em, .slots, .asrun, .counters, .ports] (d.fillHead x slot) :=
  (takeHead_within.mono (by decide)).trans ((beginLateFill_within _ _ _).mono (by decide))

theorem em_fillHead (hbuf : d.em.buffer = [slot]) : (d.fillHead x slot).em = { d.em with buffer := [] } :=
  ((beginLateFill_within x slot _).em_eq (by decide)).trans (em_takeHead hbuf)

theorem slots_fillHead : (d.fillHead x slot).slots = d.slots.set slot { d.slots[slot] with state := .emitting } :=
  (beginLateFill_within x slot _).slots_eq (by decide)

theorem slot_fillHead : (d.fillHead x slot).slots[slot] = { d.slots[slot] with state := .emitting } := by simp [slots_fillHead]

theorem counters_fillHead : (d.fillHead x slot).counters = (count x .emission 4 d).counters :=
  (counters_beginLateFill ..).trans (counters_count_congr (takeHead_within.counters_eq (by decide)) _ _ _)

/-- The drafts of a frame whose late fill begins are flagged. -/
theorem drafts_fillHead {q : ProgNo} {m : Mark} {b : Break} {n : DraftNo} {y : Draft} (hq : q ∈ (d.slots[slot]).openProgs)
    (hmark : (d.slots[slot]).markOf q = some m) (hbreak : getBreak q m.brk d = some b) (hdraft : b.draft = some n)
    (hy : d.asrun.drafts[n] = some y) : (d.fillHead x slot).asrun.drafts[n] = some { y with lateFill := true } := by
  have hopen : q ∈ ((d.takeHead slot).slots[slot]).openProgs := by
    rw [slot_takeHead]
    exact hq
  have hmark' : ((d.takeHead slot).slots[slot]).markOf q = some m := by
    rw [slot_takeHead]
    exact hmark
  rw [Device.fillHead, beginLateFill, (count_within x _ _ _).asrun_eq (by decide)]
  exact drafts_flagLateFill hopen hmark' hbreak hdraft hy

variable {due : Due} (hstate : (d.slots[slot]).state = .splicing)

include hstate

/-- A SPLICING frame waits for a SPLICE burst granted for it. -/
theorem takeFrame_of_granted {pl : Fin 256} {p : ProgNo} {cell : Bytes} (hcur : d.arb.current = some ⟨.splice, .splice slot pl p cell, true⟩) :
    takeFrame x slot due d
      = (d.fillHead x slot).setEm { (d.fillHead x slot).em with item := some ⟨.real slot, due, .filling⟩ } := by
  have hyes : ((d.slots[slot]).state == .splicing) = true := by rw [hstate]; rfl
  have hfill : beginLateFill x slot (setSlotState slot .emitting (d.setEm { d.em with buffer := d.em.buffer.erase slot }))
      = d.fillHead x slot := rfl
  have hgranted : spliceGranted slot (d.fillHead x slot) = true := by
    simp [spliceGranted, (fillHead_within x).arb_eq (by decide), hcur]
  simp only [takeFrame, hyes, if_true, hfill, hgranted]

/-- With no SPLICE burst granted for it, the late fill of a SPLICING frame ends at once. -/
theorem takeFrame_of_ungranted (hfree : ∀ t, d.arb.current = some t → t.target.slotOf ≠ some slot) :
    takeFrame x slot due d = handleItem x ⟨.real slot, due, .waiting⟩ due.instant (endLateFill x slot (d.fillHead x slot)) := by
  have hyes : ((d.slots[slot]).state == .splicing) = true := by rw [hstate]; rfl
  have hfill : beginLateFill x slot (setSlotState slot .emitting (d.setEm { d.em with buffer := d.em.buffer.erase slot }))
      = d.fillHead x slot := rfl
  have hnot : spliceGranted slot (d.fillHead x slot) = false := by
    unfold spliceGranted
    split
    · next i pl p c keep hcur =>
      rw [(fillHead_within x).arb_eq (by decide)] at hcur
      have hne : i ≠ slot := fun heq => hfree _ hcur (congrArg some heq)
      simp [hne]
    · rfl
  simp only [takeFrame, hyes, if_true, hfill, hnot, Bool.false_eq_true, if_false]
  rfl

omit hstate in
/-- Late fill of the head of the buffer, marked for one programme and alone in the splice work queue, where its break draws no clip to its
end. -/
theorem endLateFill_fillHead {m : Mark} {b b1 : Break} {n : Nat} (hmarks : (d.slots[slot]).marks = [m])
    (hcursor : (d.slots[slot]).cursor = some n) (hleft : (d.slots[slot]).work.drop n ≠ [])
    (hall : ∀ w ∈ (d.slots[slot]).work.drop n, w.prog = m.prog) (hactive : (d.splice.progs[m.prog]).active = some b) (hid : b.id = m.brk)
    (hended : (d.splice.progs[m.prog]).ended = []) (hclosed : (d.splice.progs[m.prog]).closed = []) (hqueue : d.splice.queue = [slot])
    (hid1 : b1.id = b.id)
    (hadvance : ∀ d' : Device, d'.cat = d.cat → advanceMany m.prog ((d.slots[slot]).work.drop n).length b d' = (b1, d')) :
    ∃ a, endLateFill x slot (d.fillHead x slot) = { d.fillHead x slot with
      arb := a
      slots := d.slots.set slot ({ d.slots[slot] with state := .emitting }.lateFilled n)
      splice := { d.splice with
        progs := d.splice.progs.set m.prog { d.splice.progs[m.prog] with active := some { b1 with work := b1.work - 1 } }
        queue := [] } } := by
  have hwithin := fillHead_within (d := d) (slot := slot) x
  have hslot := slot_fillHead (d := d) (slot := slot) x
  have hsplice : (d.fillHead x slot).splice = d.splice := hwithin.splice_eq (by decide)
  have hcat : (d.fillHead x slot).cat = d.cat := hwithin.cat_eq (by decide)
  have hshare := lateFillShare_eq (slot := slot) (m := m) (b := b) (b1 := b1) (n := n) (d := d.fillHead x slot) (by rw [hslot]; exact hmarks)
    (by rw [hslot]; exact hcursor) (by rw [hslot]; exact hall) (by rw [hsplice]; exact hactive) hid (by rw [hsplice]; exact hended)
    (by rw [hsplice]; exact hclosed) hid1 (fun d' hd' => by rw [hslot]; exact hadvance d' (hd'.trans hcat)) x
  have hopen : ((d.fillHead x slot).slots[slot]).openProgs = [m.prog] := by
    have hitems : ((d.fillHead x slot).slots[slot]).openItems = (d.slots[slot]).work.drop n := by
      rw [hslot]
      exact Record.openItems_of_cursor hcursor
    exact openProgs_of_one (by rw [hitems]; exact hleft) (by rw [hitems]; exact hall)
  obtain ⟨a, hfilled⟩ := endLateFill_eq hopen x hshare (by rw [hsplice]; exact hqueue)
  refine ⟨a, ?_⟩
  rw [hfilled, hslot, slots_fillHead, Vector.set_set, hsplice]

end SplicingFrame

/-- What the source of a break's cells becomes of cells drawn that bring no clip to its end. -/
theorem advanceMany_short {b : Break} {n : Nat} {d : Device}
    (hsource : b.source = .null ∨ b.source = .list ∧ ∃ clip, b.playing = some clip ∧ b.clipPos + n < clipLength clip d) (p : ProgNo)
    {d' : Device} (hd' : d'.cat = d.cat) : advanceMany p n b d' = (if b.source = .null then b else b.drawn n, d') := by
  rcases hsource with hnull | ⟨hlist, clip, hplaying, hmore⟩
  · rw [if_pos hnull, advanceMany_null hnull]
  · rw [if_neg (by rw [hlist]; decide), advanceMany_within_clip hlist hplaying (by rw [clipLength_congr hd']; exact hmore)]

/-- Settles O54: the head is taken, then handled by the output mode, and before that by late fill where its splice work goes on. -/
theorem dueFrameIsTaken : Obligations.DueFrameIsTaken := by
  refine ⟨fun slot due s hitem hgaps hbuf hdue hstate _ harr => ⟨fun honAir htime hcredit => ?sent, fun sub hcase => ?discarded⟩, ?_⟩
  case sent =>
    have hmode : outputMode s.site (s.dev.takeHead slot) = outputMode s.site s.dev := rfl
    rw [exec_dueInstant_alone hitem hgaps hbuf hdue harr, takeFrame_of_queued hstate,
      handleItem_sends (hmode.trans honAir) htime _ (by rw [em_takeHead hbuf]; exact hcredit)]
    obtain ⟨hem, hwithin, _⟩ := beginSending_real s.site slot due .waiting (s.dev.takeHead slot)
    rw [serveLoop_of_item (i := ⟨.real slot, due, .sending 0⟩) (by rw [hem]; rfl)]
    have hmarker : sentMarker (s.dev.takeHead slot).slots[slot] = sentMarker s.dev.slots[slot] := by rw [slot_takeHead]; rfl
    have hnumber : ((s.dev.takeHead slot).slots[slot]).frameNo = (s.dev.slots[slot]).frameNo := by rw [slot_takeHead]; rfl
    rw [em_takeHead hbuf] at hem
    simp only [Emission.begin, Emission.leave, itemMarker, itemNumber, hmarker, hnumber] at hem
    refine ⟨_, rfl, ?_⟩
    simp only [State.setDev_dev, State.setDev_site, hem, true_and, and_true]
    exact ⟨hwithin.slots_eq (by decide), hwithin.mem_eq (by decide), hwithin.sel_eq (by decide)⟩
  case discarded =>
    have hmode : outputMode s.site (s.dev.takeHead slot) = outputMode s.site s.dev := rfl
    have hhandled : ∃ f, handleItem s.site ⟨.real slot, due, .waiting⟩ due.instant (s.dev.takeHead slot)
        = discardItem s.site ⟨.real slot, due, .waiting⟩ sub f (s.dev.takeHead slot) := by
      rcases hcase with ⟨hmuted, rfl⟩ | ⟨hstandby, rfl⟩
      · exact ⟨_, handleItem_muted (hmode.trans hmuted) _⟩
      · exact ⟨_, handleItem_standby rfl (hmode.trans hstandby) _⟩
    obtain ⟨f, hhandled⟩ := hhandled
    obtain ⟨hem, hslots, hcounters, hwithin⟩ := discardItem_real s.site slot due .waiting sub f (s.dev.takeHead slot)
    rw [em_takeHead hbuf] at hem
    rw [exec_dueInstant_alone hitem hgaps hbuf hdue harr, takeFrame_of_queued hstate, hhandled,
      serveLoop_of_empty (by rw [hem]; exact hgaps) (by rw [hem]; rfl)]
    have hnumber : ((s.dev.takeHead slot).slots[slot]).frameNo = (s.dev.slots[slot]).frameNo := by rw [slot_takeHead]; rfl
    simp only [Emission.leave, itemNumber, hnumber] at hem
    refine ⟨_, rfl, ?_⟩
    simp only [State.setDev_dev, State.setDev_site, hem, true_and, and_true]
    refine ⟨?_, ?_, hwithin.mem_eq (by decide), hwithin.sel_eq (by decide)⟩
    · rw [hcounters]
      refine counters_sample_congr (counters_count_congr (by rfl) _ _ _) ?_ ?_ _ _
      · rw [em_count, em_count, em_takeHead hbuf]
      · rw [slotsBusy_congr (slots_count ..), slotsBusy_takeHead (by rw [hstate]; decide)]
        exact (slotsBusy_congr (d := s.dev) (by rw [slots_count])).symm
    · rw [hslots, slots_takeHead, Vector.set_set]
  intro slot due s hitem hgaps hbuf hdue hstate harr r
  have hwithin := fillHead_within (d := s.dev) (slot := slot) s.site
  have hem := em_fillHead s.site hbuf
  rw [exec_dueInstant_alone hitem hgaps hbuf hdue harr]
  refine ⟨fun pl p cell hcur => ?granted, ?_⟩
  case granted =>
    rw [takeFrame_of_granted s.site hstate hcur, serveLoop_setEm (i := ⟨.real slot, due, .filling⟩) rfl, hem]
    refine ⟨_, rfl, ?_⟩
    simp only [State.setDev_dev, State.setDev_site, Device.setEm_em, Device.setEm_slots, Device.setEm_counters, Device.setEm_arb,
      Device.setEm_splice, Device.setEm_mem, Device.setEm_asrun]
    exact ⟨trivial, slots_fillHead _, counters_fillHead _, hwithin.arb_eq (by decide), hwithin.splice_eq (by decide),
      hwithin.mem_eq (by decide), trivial, fun q m b n y => drafts_fillHead s.site⟩
  intro m b n left hfree hmarks hcursor hleft hnonempty hall hactive hid hended hclosed hqueue honAir htime hcredit hsource
  subst hleft
  have hid1 : (if b.source = .null then b else b.drawn (r.work.drop n).length).id = b.id := by split <;> rfl
  obtain ⟨a, hfilled⟩ := endLateFill_fillHead s.site hmarks hcursor hnonempty hall hactive hid hended hclosed hqueue hid1
    (fun _ => advanceMany_short hsource m.prog)
  rw [takeFrame_of_ungranted s.site hstate hfree]
  obtain ⟨e, he⟩ : ∃ e, e = endLateFill s.site slot (s.dev.fillHead s.site slot) := ⟨_, rfl⟩
  rw [← he] at hfilled ⊢
  have hem' : e.em = { s.dev.em with buffer := [] } := by rw [hfilled]; exact hem
  have hmode : outputMode s.site e = .onAir := by
    rw [← honAir, hfilled]
    exact outputMode_congr (d := s.dev) (hwithin .intakes (by decide)) s.site
  have hcredits : e.em.credits = 0 := by rw [hem']; exact hcredit
  rw [handleItem_waits hmode htime _ hcredits, serveLoop_setEm (i := ⟨.real slot, due, .waiting⟩) rfl, hem']
  refine ⟨_, rfl, rfl, ?_⟩
  have hnew : ∀ g : Programme, (s.dev.splice.progs.set m.prog g)[m.prog] = g := fun g => by simp
  simp only [State.setDev_dev, State.setDev_site, Device.setEm_slots, Device.setEm_counters, Device.setEm_splice, Device.setEm_cat,
    Device.setEm_mem, hfilled, hnew]
  refine ⟨rfl, counters_fillHead _, trivial, hwithin.cat_eq (by decide), hwithin.mem_eq (by decide), trivial, ?_⟩
  split <;> rfl

end Sys2Proof.Machine
end

section
/-! PROOFS. Cues: the answer to a query, the checks of a break cue, cancels and expiry (R137 to R142). -/

namespace Sys2Proof.Machine

/-! ### The queue of a programme -/

theorem splice_refresh (x : Site) (d : Device) : (refresh x d).splice = d.splice := (refresh_within x d).splice_eq (by decide)

/-- What an immediate record leaves alone. -/
theorem immediateRecord_within (x : Site) (p : ProgNo) (cue : CueId) (slotCode : Byte) (confirm : Bool) (o : AsRunOutcome) (c : Cause)
    (d : Device) : d.Within [.asrun, .ports] (immediateRecord x p cue slotCode confirm o c d) := pushRecord_within x d _

theorem setQueue_within (x : Site) (p : ProgNo) (q : List Cue) (d : Device) : d.Within [.splice, .ports] (setQueue x p q d) :=
  ((updProg_within d p _).mono (by decide)).trans ((refresh_within x _).mono (by decide))

theorem prog_setQueue (x : Site) (p : ProgNo) (q : List Cue) (d : Device) :
    (setQueue x p q d).splice.progs[p] = { d.splice.progs[p] with queue := q } := by
  rw [setQueue, splice_refresh]
  exact vmodify_get_self ..

/-- A cue that stays in the queue is found there as it now stands. -/
theorem find?_map_cue {id : CueId} {f : Cue → Cue} (hf : ∀ c, (f c).id = c.id) (l : List Cue) :
    (l.map f).find? (fun c => c.id == id) = (l.find? (fun c => c.id == id)).map f := by
  simp [List.find?_map, hf]

theorem find?_removed (id : CueId) (l : List Cue) : (l.filter (fun c => c.id != id)).find? (fun c => c.id == id) = none := by
  rw [List.find?_eq_none]
  intro c hc
  have := (List.mem_filter.mp hc).2
  simpa using this

/-- The device with one queued cue's decision and cause replaced. -/
def Device.decideCue (d : Device) (q : ProgNo) (id : CueId) (dec : Decision) (cause : Cause) : Device :=
  d.updProg q (fun g => { g with queue := g.queue.map (fun c => if c.id == id then { c with decision := dec, cause := cause } else c) })

theorem armCue_eq (x : Site) (q : ProgNo) (id : CueId) (dec : Decision) (cause : Cause) (d : Device) :
    armCue x q id dec cause d = refresh x (d.decideCue q id dec cause) := rfl

/-- The device with the cues of an id out of a programme's queue. -/
def Device.withoutCue (d : Device) (q : ProgNo) (id : CueId) : Device :=
  d.updProg q (fun _ => { d.splice.progs[q] with queue := (d.splice.progs[q]).queue.filter (fun c => c.id != id) })

theorem removeCue_eq (x : Site) (q : ProgNo) (id : CueId) (d : Device) : removeCue x q id d = refresh x (d.withoutCue q id) := rfl

/-! ### What became of the cue (R140) -/

section Result

variable {q : ProgNo} {id : CueId} {c : Cue} {d : Device} (hfind : (d.splice.progs[q]).queue.find? (fun c => c.id == id) = some c) (x : Site)

include hfind

theorem find?_decided (dec : Decision) (cause : Cause) :
    ((armCue x q id dec cause d).splice.progs[q]).queue.find? (fun c => c.id == id) = some { c with decision := dec, cause := cause } := by
  have hid : (c.id == id) = true := List.find?_some (p := fun c : Cue => c.id == id) hfind
  rw [armCue, prog_setQueue, find?_map_cue (fun c => by split <;> rfl), hfind]
  simp only [Option.map_some, hid, if_true]

theorem answerResult_armed (l : Option ListNo) (f : Option ClipId) (cause : Cause) :
    answerResult (armCue x q id (.armed l f) cause d).splice.progs[q] id = 1 := by
  simp only [answerResult, find?_decided hfind]

theorem answerResult_blank (cause : Cause) : answerResult (armCue x q id .blank cause d).splice.progs[q] id = 2 := by
  simp only [answerResult, find?_decided hfind]

end Result

theorem answerResult_removed (x : Site) (q : ProgNo) (id : CueId) (slotCode : Byte) (confirm : Bool) (o : AsRunOutcome) (cause : Cause)
    (d : Device) : answerResult (immediateRecord x q id slotCode confirm o cause (removeCue x q id d)).splice.progs[q] id = 3 := by
  have hprog : (removeCue x q id d).splice.progs[q]
      = { d.splice.progs[q] with queue := (d.splice.progs[q]).queue.filter (fun c => c.id != id) } := prog_setQueue ..
  rw [(immediateRecord_within x q id slotCode confirm o cause _).splice_eq (by decide), hprog]
  simp only [answerResult, find?_removed]

/-! ### The body of CueAnswer (R140) -/

section Body

variable {r : Request} {s : State} {q : ProgNo} {id : CueId} {a lb : Byte} {pres : Bool}
  (hbody : r.body = BitVec.ofNat 8 q.val :: beBytes 2 id.toNat ++ [a, if pres then 1 else 0, lb])

include hbody

theorem cueAnswer_fields :
    finOf 8 (byteAt r.body 0).toNat = some q ∧ BitVec.ofNat 16 (fieldAt r.body 1 2) = id ∧ byteAt r.body 3 = a
      ∧ readFlag (byteAt r.body 4) = some pres ∧ byteAt r.body 5 = lb := by
  have hid := fieldAt_beBytes_between [BitVec.ofNat 8 q.val] [a, if pres then 1 else 0, lb] 2 id.toNat
  have hmod : id.toNat % 256 ^ 2 = id.toNat := Nat.mod_eq_of_lt id.isLt
  rw [hbody]
  refine ⟨finOf_ofNat_val q, ?_, rfl, readFlag_ite pres, rfl⟩
  rw [hmod] at hid
  have hfield : fieldAt (BitVec.ofNat 8 q.val :: beBytes 2 id.toNat ++ [a, if pres then 1 else 0, lb]) 1 2 = id.toNat := hid
  rw [hfield, BitVec.ofNat_toNat, BitVec.setWidth_eq]

variable (ha : a.toNat = 1 ∨ a.toNat = 2) (hlist : a.toNat = 1 → pres = true → lb.toNat ≤ 31)

omit hbody in
include ha hlist in
theorem cueAnswer_legal :
    ((decide (a.toNat ≠ 1) && decide (a.toNat ≠ 2)) || (decide (a.toNat = 1) && pres && decide (lb.toNat > 31))) = false := by
  rcases ha with h | h
  · cases pres with
    | false => simp [h]
    | true => simp [h, hlist h rfl]
  · simp [h]

include ha hlist

/-- The checks of the body pass, and the query of the id is answered. -/
theorem ownCueAnswer_query {c : Cue} (hfind : (s.dev.splice.progs[q]).queue.find? (fun c => c.id == id) = some c)
    (hquery : c.decision = .query) {d : Device}
    (hd : takeAnswer s.site q c (a.toNat = 1) (if pres then finOf 32 lb.toNat else none) s.dev = d) :
    ownCueAnswer r s = ⟨s.setDev d, .ok, [BitVec.ofNat 8 (answerResult d.splice.progs[q] id)]⟩ := by
  obtain ⟨hprog, hid, hans, hflag, hlb⟩ := cueAnswer_fields hbody
  have hq : c.isQuery = true := by simp [Cue.isQuery, hquery]
  simp only [ownCueAnswer, hprog, hid, hans, hflag, hlb, cueAnswer_legal ha hlist, hfind, hq, if_true, Bool.false_eq_true, if_false, hd,
    beBytes_one]

/-- Without a query of the id the answer is refused. -/
theorem ownCueAnswer_refused {o : Option Cue} (hfind : (s.dev.splice.progs[q]).queue.find? (fun c => c.id == id) = o)
    (hquery : ∀ c, o = some c → c.decision ≠ .query) :
    ownCueAnswer r s = .refuse s (if (s.dev.splice.progs[q]).expired.contains id then .tooLate
      else if o.isSome then .wrongState else .notFound) := by
  obtain ⟨hprog, hid, hans, hflag, hlb⟩ := cueAnswer_fields hbody
  cases o with
  | none =>
    simp only [ownCueAnswer, hprog, hid, hans, hflag, hlb, cueAnswer_legal ha hlist, hfind, Bool.false_eq_true, if_false,
      Option.isSome_none]
  | some c =>
    have hq : c.isQuery = false := by simp [Cue.isQuery, hquery c rfl]
    simp only [ownCueAnswer, hprog, hid, hans, hflag, hlb, cueAnswer_legal ha hlist, hfind, hq, Bool.false_eq_true, if_false,
      Option.isSome_some, if_true]
    split <;> rfl

end Body

/-! ### A cue decided by its slot code (R138) -/

section Table

variable {x : Site} {q : ProgNo} {c : Cue} {d : Device}

theorem lookupCause_none (hon : (x.slotTable[c.slotCode.toFin]).enabled = true) (hversion : (x.slotTable[c.slotCode.toFin]).version = c.version) :
    lookupCause x c = .none := by
  simp only [lookupCause, hon, hversion, Bool.not_true, Bool.false_eq_true, if_false, bne_self_eq_false]

theorem lookupCause_disabled (hoff : (x.slotTable[c.slotCode.toFin]).enabled = false) : lookupCause x c = .slotDisabled := by
  simp only [lookupCause, hoff, Bool.not_false, if_true]

theorem lookupCause_mismatch (hon : (x.slotTable[c.slotCode.toFin]).enabled = true)
    (hversion : (x.slotTable[c.slotCode.toFin]).version ≠ c.version) : lookupCause x c = .versionMismatch := by
  have hne : ((x.slotTable[c.slotCode.toFin]).version != c.version) = true := bne_iff_ne.mpr hversion
  simp only [lookupCause, hon, hne, Bool.not_true, Bool.false_eq_true, if_false, if_true]

theorem decideByTable_armed (h : lookupCause x c = .none) :
    decideByTable x q c d
      = armCue x q c.id (.armed (x.slotTable[c.slotCode.toFin]).list (x.slotTable[c.slotCode.toFin]).filler) .none d := by
  simp only [decideByTable, h]

theorem decideByTable_fallback {cause : Cause} (h : lookupCause x c = cause) (hne : cause ≠ .none) :
    decideByTable x q c d = applyFallback x q c cause d := by
  unfold decideByTable
  rw [h]
  split
  · exact absurd rfl hne
  · rfl

theorem applyFallback_blank (h : c.fallback = .blank) (cause : Cause) : applyFallback x q c cause d = armCue x q c.id .blank cause d := by
  simp only [applyFallback, h]

theorem applyFallback_pass (h : c.fallback = .pass) (cause : Cause) :
    applyFallback x q c cause d = cueRecord x q c .passed cause (removeCue x q c.id d) := by
  simp only [applyFallback, h]

end Table

/-- Settles O38: the query is armed, decided by the table or declined, and the reply says what became of it. -/
theorem queryIsAnswered : Obligations.QueryIsAnswered := by
  intro p r s q id l pres other hserve g take lookup decline
  have hexec : exec (.cueAnswer p) s
      = .next (sendReply p r (ownCueAnswer r s).status (ownCueAnswer r s).extra (ownCueAnswer r s).state) := serve_serving hserve
  have hval : (BitVec.ofNat 8 l.val).toNat = l.val := by
    simp
    omega
  have hone : (1#8).toNat = 1 := rfl
  have htwo : (2#8).toNat = 2 := rfl
  have hshape : r.body = take ∨ r.body = lookup ∨ r.body = decline → ∃ (a lb : Byte) (f : Bool),
      r.body = BitVec.ofNat 8 q.val :: beBytes 2 id.toNat ++ [a, if f then 1 else 0, lb]
        ∧ (a.toNat = 1 ∨ a.toNat = 2) ∧ (a.toNat = 1 → f = true → lb.toNat ≤ 31) := by
    rintro (h | h | h)
    · exact ⟨1, BitVec.ofNat 8 l.val, true, h, .inl rfl, fun _ _ => by omega⟩
    · exact ⟨1, other, false, h, .inl rfl, fun _ h => absurd h (by decide)⟩
    · exact ⟨2, other, pres, h, .inr rfl, fun h => absurd h (by decide)⟩
  rw [hexec]
  refine ⟨fun c hbody hfind hquery => ?take, fun c hbody hfind hquery => ?lookup, fun c hbody hfind hquery => ?decline,
    fun hbody hfind => ?missing, fun c hbody hfind hquery => ?armed⟩
  case take =>
    have hid : c.id = id := by simpa using List.find?_some (p := fun c : Cue => c.id == id) hfind
    have htaken : takeAnswer s.site q c ((1#8).toNat = 1) (if true then finOf 32 (BitVec.ofNat 8 l.val).toNat else none) s.dev
        = armCue s.site q id (.armed (some l) none) .none s.dev := by
      rw [if_pos rfl, hval, finOf_val, ← hid]
      rfl
    rw [ownCueAnswer_query (pres := true) hbody (.inl rfl) (fun _ _ => by omega) hfind hquery htaken, answerResult_armed hfind]
    rfl
  case lookup =>
    have hid : c.id = id := by simpa using List.find?_some (p := fun c : Cue => c.id == id) hfind
    have hanswer : ∀ d, decideByTable s.site q c s.dev = d →
        ownCueAnswer r s = ⟨s.setDev d, .ok, [BitVec.ofNat 8 (answerResult d.splice.progs[q] id)]⟩ := fun d hd =>
      ownCueAnswer_query (pres := false) hbody (.inl rfl) (fun _ h => absurd h (by decide)) hfind hquery hd
    have hblank : ∀ cause, cause ≠ .none → c.fallback = .blank → lookupCause s.site c = cause →
        ownCueAnswer r s = ⟨s.setDev (armCue s.site q id .blank cause s.dev), .ok, [2]⟩ := by
      intro cause hne hfall hcause
      rw [hanswer _ ((decideByTable_fallback hcause hne).trans (applyFallback_blank hfall cause)), hid, answerResult_blank hfind]
      rfl
    intro e
    refine ⟨fun hon hversion => ?known, fun hoff hfall => ?off, fun hon hversion hfall => ?version, fun hbad hfall => ?pass⟩
    case known =>
      rw [hanswer _ (decideByTable_armed (lookupCause_none hon hversion)), hid, answerResult_armed hfind]
      rfl
    case off =>
      rw [hblank _ (by decide) hfall (lookupCause_disabled hoff)]
      rfl
    case version =>
      rw [hblank _ (by decide) hfall (lookupCause_mismatch hon hversion)]
      rfl
    case pass =>
      have hcause : lookupCause s.site c = if e.enabled then .versionMismatch else .slotDisabled := by
        cases hon : e.enabled with
        | false => exact lookupCause_disabled hon
        | true => exact lookupCause_mismatch hon (hbad.resolve_left (by rw [hon]; decide))
      have hne : (if e.enabled then Cause.versionMismatch else .slotDisabled) ≠ .none := by split <;> decide
      have hdecided : decideByTable s.site q c s.dev = immediateRecord s.site q id c.slotCode c.confirm .passed
          (if e.enabled then .versionMismatch else .slotDisabled) (removeCue s.site q id s.dev) := by
        rw [decideByTable_fallback hcause hne, applyFallback_pass hfall, cueRecord, hid]
      rw [hanswer _ hdecided, answerResult_removed]
      rfl
  case decline =>
    have hid : c.id = id := by simpa using List.find?_some (p := fun c : Cue => c.id == id) hfind
    have htaken : takeAnswer s.site q c ((2#8).toNat = 1) (if pres then finOf 32 other.toNat else none) s.dev
        = immediateRecord s.site q id c.slotCode c.confirm .passed .declined (removeCue s.site q id (count s.site .cue 4 s.dev)) := by
      rw [← hid]
      rfl
    have hsplice : (count s.site .cue 4 s.dev).splice = s.dev.splice := (count_within s.site s.dev .cue 4).splice_eq (by decide)
    rw [ownCueAnswer_query hbody (.inr rfl) (fun h => absurd h (by decide)) hfind hquery htaken, answerResult_removed, removeCue_eq,
      Device.withoutCue, hsplice]
    rfl
  case missing =>
    obtain ⟨a, lb, f, hfields, ha, hlist⟩ := hshape hbody
    rw [ownCueAnswer_refused hfields ha hlist hfind (fun c h => absurd h (by simp))]
    rfl
  case armed =>
    obtain ⟨a, lb, f, hfields, ha, hlist⟩ := hshape hbody
    rw [ownCueAnswer_refused hfields ha hlist hfind (fun c' h => by cases h; exact hquery)]
    rfl

/-! ### Order of frame numbers -/

theorem isAfter_irrefl (a : FrameNo) : isAfter a a = false := by simp [isAfter]

theorem isAfter_asymm {a b : FrameNo} (h : isAfter a b = true) : isAfter b a = false := by
  simp only [isAfter, Bool.and_eq_true, decide_eq_true_eq, Bool.and_eq_false_iff, decide_eq_false_iff_not] at h ⊢
  bv_omega

theorem isAfter_succ (k : FrameNo) : isAfter (k + 1) k = true := by
  simp only [isAfter, Bool.and_eq_true, decide_eq_true_eq]
  bv_omega

/-! ### The checks of a break cue (R137) -/

theorem overlaps_iff (g : Programme) (c : Cue) :
    overlaps g c = true ↔ (∃ h ∈ g.queue, h.id = c.id ∨ rangesMeet c.out c.length h.out h.length = true)
      ∨ (∃ b, g.active = some b ∧ rangesMeet c.out c.length b.out (b.endF - b.out).toNat = true) := by
  simp [overlaps, Option.any_eq_true]

/-! ### The end of a break (R145, R146) -/

/-- The device once a break's list is rotated and its holds on it are released (R130, R131). -/
def Device.turnList (d : Device) (b : Break) : Device :=
  match b.list, b.current with
  | some l, some e => releaseHolds b.id l (rotateList l e (b.source != .list) d)
  | _, _ => d

/-- The device once the clip a break plays is played no more (R105). -/
def Device.stopClip (d : Device) (b : Break) : Device :=
  match b.playing with
  | some c => lowerPlay c d
  | none => d

theorem closeBreak_eq (x : Site) (p : ProgNo) (b : Break) (d : Device) :
    closeBreak x p b d
      = appendDraft x b.draft ((onDraft b.draft (closeDraft b) ((d.turnList b).stopClip b)).updProg p (removeBreak b)) := rfl

theorem turnList_within (d : Device) (b : Break) : d.Within [.cat, .lists] (d.turnList b) := by
  unfold Device.turnList
  split
  · exact ((rotateList_within d _ _ _).mono (by decide)).trans (releaseHolds_within _ _ _)
  · exact .refl _ d

theorem stopClip_within (d : Device) (b : Break) : d.Within [.cat] (d.stopClip b) := by
  unfold Device.stopClip
  split
  · exact lowerPlay_within d _
  · exact .refl _ d

/-- A break that closes is taken from its programme, and no other part of the splice engine changes. -/
theorem splice_closeBreak (x : Site) (p : ProgNo) (b : Break) (d : Device) :
    (closeBreak x p b d).splice = { d.splice with progs := d.splice.progs.set p (removeBreak b d.splice.progs[p]) } := by
  have hbefore : (onDraft b.draft (closeDraft b) ((d.turnList b).stopClip b)).splice = d.splice := by
    rw [(onDraft_within _ _ _).splice_eq (by decide), (stopClip_within _ _).splice_eq (by decide), (turnList_within _ _).splice_eq (by decide)]
  rw [closeBreak_eq, (appendDraft_within x _ _).splice_eq (by decide), Device.updProg, hbefore]
  rfl

theorem prog_closeBreak (x : Site) (p : ProgNo) (b : Break) (d : Device) :
    (closeBreak x p b d).splice.progs[p] = removeBreak b d.splice.progs[p] := by simp [splice_closeBreak]

/-- The active break whose range ends is active no more; with work left on it, it becomes the newest ended break. -/
theorem prog_endRange {p : ProgNo} {b : Break} {d : Device} (hactive : (d.splice.progs[p]).active = some b)
    (hended : (d.splice.progs[p]).ended = []) (x : Site) :
    ((endRange x p d).splice.progs[p]).active = none
      ∧ (0 < b.work → ((endRange x p d).splice.progs[p]).ended = [b]) := by
  have hprog : (d.updProg p (fun q => { q with active := none, ended := q.ended ++ [b] })).splice.progs[p]
      = { d.splice.progs[p] with active := none, ended := [b] } := by
    refine (vmodify_get_self ..).trans ?_
    rw [hended]
    rfl
  have hdone : endRange x p d = if b.work = 0 then
        closeBreak x p b (d.updProg p (fun q => { q with active := none, ended := q.ended ++ [b] }))
      else d.updProg p (fun q => { q with active := none, ended := q.ended ++ [b] }) := by
    simp only [endRange, hactive, closeIfDone, hprog, List.find?_cons, beq_self_eq_true]
  rw [hdone]
  split
  · next hwork =>
    rw [prog_closeBreak, hprog]
    exact ⟨rfl, fun h => absurd hwork (Nat.ne_of_gt h)⟩
  · rw [hprog]
    exact ⟨rfl, fun _ => rfl⟩

/-! ### A CANCEL (R142) -/

section Cancel

variable {p : ProgNo} {r : CueRecord} {d : Device} (x : Site)

theorem takeCancel_queued {c : Cue} (hfind : (d.splice.progs[p]).queue.find? (fun c => c.id == r.id) = some c) :
    takeCancel x p r d
      = immediateRecord x p r.id c.slotCode c.confirm .cancelled .cancelCue (removeCue x p r.id (count x .cue 5 d)) := by
  have hid : c.id = r.id := by simpa using List.find?_some (p := fun c : Cue => c.id == r.id) hfind
  simp only [takeCancel, hfind, cueRecord, hid]

variable (hfind : (d.splice.progs[p]).queue.find? (fun c => c.id == r.id) = none)

include hfind

theorem takeCancel_unknown (hactive : ∀ b, (d.splice.progs[p]).active = some b → b.cue ≠ r.id ∨ isBefore r.out b.endF = false) :
    takeCancel x p r d = d := by
  simp only [takeCancel, hfind]
  split
  · rfl
  · next b hb =>
    rw [if_neg]
    rcases hactive b hb with h | h <;> simp [h]

/-- The end of the active break moves down, and its range ends where the frame after its last marked one is reached. -/
theorem takeCancel_active {b : Break} {k e : FrameNo} (hactive : (d.splice.progs[p]).active = some b) (hcue : b.cue = r.id)
    (hlast : b.lastMarked = some k) (hbefore : isBefore r.out b.endF = true)
    (he : e = if isAfter (k + 1) r.out then k + 1 else r.out) :
    takeCancel x p r d = if e = k + 1 then
        endRange x p (updBreak p b.id (fun b => { b with endF := e, cause := .cancelCue }) (count x .cue 5 d))
      else updBreak p b.id (fun b => { b with endF := e, cause := .cancelCue }) (count x .cue 5 d) := by
  subst he
  simp only [takeCancel, hfind, hactive, hcue, hbefore, hlast, beq_self_eq_true, Bool.and_self, if_true, Option.getD_some]

end Cancel

/-! ### The expiry of a query (R141) -/

theorem testActive_of_none {p : ProgNo} {d : Device} (h : (d.splice.progs[p]).active = none) (x : Site) (slot : SlotNo) (k : FrameNo) :
    testActive x p slot k d = d := by simp only [testActive, h]

theorem testHeads_of_empty {p : ProgNo} {d : Device} (h : (d.splice.progs[p]).queue = []) (x : Site) (slot : SlotNo) (k : FrameNo)
    (n : Nat) : testHeads x p slot k n d = d := by
  cases n with
  | zero => rfl
  | succ n =>
    unfold testHeads
    split
    · next heq => rw [h] at heq; cases heq
    · rfl

/-- A head cue whose out frame is after the admitted frame is left waiting. -/
theorem testHeads_of_later {p : ProgNo} {c : Cue} {l : List Cue} {k : FrameNo} {d : Device} (h : (d.splice.progs[p]).queue = c :: l)
    (hlater : isAfter c.out k = true) (x : Site) (slot : SlotNo) (n : Nat) : testHeads x p slot k n d = d := by
  cases n with
  | zero => rfl
  | succ n =>
    unfold testHeads
    split
    · next c' l' _ heq =>
      rw [h] at heq
      cases heq
      simp only [hlater, Bool.true_or, if_true]
    · rfl

/-- A programme without a break and with one queued query: the query expires where the frame is not before the one before its out frame,
and then the heads are tested. -/
theorem programmeTurn_of_query {x : Site} {p : ProgNo} {c : Cue} {k : FrameNo} {d d' : Device} (henabled : (x.progs[p]).enabled = true)
    (hqueue : (d.splice.progs[p]).queue = [c]) (hquery : c.decision = .query)
    (hd' : d' = if isBefore k (c.out - 1) then d else expireQuery x p c d) (hactive : (d'.splice.progs[p]).active = none) (slot : SlotNo) :
    programmeTurn x slot k d p = testHeads x p slot k (2 * (d'.splice.progs[p]).queue.length + 1) d' := by
  have hq : c.isQuery = true := by simp [Cue.isQuery, hquery]
  have hfold : ((d.splice.progs[p]).queue.filter (fun c => c.isQuery && !isBefore k (c.out - 1))).foldl
      (fun d c => expireQuery x p c d) d = d' := by
    rw [hqueue, hd']
    cases hb : isBefore k (c.out - 1) with
    | false => simp only [List.filter_cons, hq, hb, Bool.not_false, Bool.and_self, if_true, List.filter_nil, List.foldl_cons,
        List.foldl_nil, Bool.false_eq_true, if_false]
    | true => simp only [List.filter_cons, hq, hb, Bool.not_true, Bool.and_false, Bool.false_eq_true, if_false, List.filter_nil,
        List.foldl_nil, if_true]
  simp only [programmeTurn, henabled, Bool.not_true, Bool.false_eq_true, if_false, hfold, testActive_of_none hactive]

/-- The device once the expiry of a query is counted and its id has joined the expired list (R139, R141). -/
def Device.expire (d : Device) (x : Site) (p : ProgNo) (id : CueId) : Device :=
  (count x .cue 3 d).updProg p (fun g => { g with expired := pushExpired id g.expired })

theorem expireQuery_eq (x : Site) (p : ProgNo) (c : Cue) (d : Device) :
    expireQuery x p c d = applyFallback x p c .expired (d.expire x p c.id) := rfl

theorem prog_expire (x : Site) (p : ProgNo) (id : CueId) (d : Device) :
    (d.expire x p id).splice.progs[p] = { d.splice.progs[p] with expired := pushExpired id (d.splice.progs[p]).expired } := by
  rw [← (count_within x d .cue 3).splice_eq (by decide)]
  exact vmodify_get_self ..

section OneCue

variable {q : ProgNo} {c : Cue} {d : Device} (hqueue : (d.splice.progs[q]).queue = [c])

include hqueue

theorem decideCue_of_one (dec : Decision) (cause : Cause) :
    d.decideCue q c.id dec cause = d.updProg q (fun g => { g with queue := [{ c with decision := dec, cause := cause }] }) := by
  simp only [Device.decideCue, Device.updProg, vmodify, hqueue, List.map_cons, List.map_nil, beq_self_eq_true, if_true]

theorem withoutCue_of_one : d.withoutCue q c.id = d.updProg q (fun g => { g with queue := [] }) := by
  simp only [Device.withoutCue, Device.updProg, vmodify, hqueue, List.filter_cons, List.filter_nil, bne_self_eq_false, Bool.false_eq_true,
    if_false]

end OneCue

/-- Settles O40: the checks in their order, the two places a CANCEL finds its cue in, and the expiry of the only query. -/
theorem cueChecksInOrder : Obligations.CueChecksInOrder := by
  refine ⟨?checks, ?cancel, ?expiry⟩
  case checks =>
    intro set g c lead meets
    have hover : overlaps g c = true ↔ meets := overlaps_iff g c
    refine ⟨fun h => ?_, fun hroll hlead => ⟨fun h => ?_, fun h hfull => ?_, fun h hroom => ?_⟩⟩
    · have hlate : (decide (lead < set.preroll) || decide (8388608 ≤ lead)) = true := by simpa using h
      simp only [refusalCause, lead, hlate, if_true]
    all_goals
      have hintime : (decide (lead < set.preroll) || decide (8388608 ≤ lead)) = false := by
        simpa using ⟨hroll, hlead⟩
      simp only [refusalCause, lead, hintime, Bool.false_eq_true, if_false]
    · rw [if_pos (hover.mpr h)]
    · rw [if_neg (mt hover.mp h), Config.cueQueueSize, if_pos hfull]
    · rw [if_neg (mt hover.mp h), Config.cueQueueSize, if_neg (Nat.not_le.mpr hroom)]
  case cancel =>
    intro x p r d g
    have hsplice : (count x .cue 5 d).splice = d.splice := (count_within x d .cue 5).splice_eq (by decide)
    refine ⟨fun c hfind => ?_, fun b k hfind hactive hcue hlast hended hclosed => ⟨fun hbefore hafter => ?_, fun hbefore hreached => ?_,
      fun hpast => ?_⟩, fun hfind hother => ?_⟩
    · rw [takeCancel_queued x hfind, removeCue_eq, Device.withoutCue, hsplice]
    · rw [takeCancel_active x hfind hactive hcue hlast hbefore (e := r.out) (by rw [isAfter_asymm hafter, if_neg (by decide)]), if_neg]
      · rw [updBreak_of_active (by rw [hsplice]; exact hactive) (by rw [hsplice]; exact hended) (by rw [hsplice]; exact hclosed), hsplice,
          Device.updProg, hsplice]
        rfl
      · intro heq
        rw [heq, isAfter_irrefl] at hafter
        cases hafter
    · have he : k + 1 = if isAfter (k + 1) r.out then k + 1 else r.out := by
        rcases hreached with h | h
        · rw [h, isAfter_irrefl, if_neg (by decide)]
        · rw [h, if_pos rfl]
      have hupd := updBreak_of_active (p := p) (b := b) (d := count x .cue 5 d) (by rw [hsplice]; exact hactive) (by rw [hsplice]; exact hended)
        (by rw [hsplice]; exact hclosed) (fun b => { b with endF := k + 1, cause := .cancelCue })
      have hprog : (updBreak p b.id (fun b => { b with endF := k + 1, cause := .cancelCue }) (count x .cue 5 d)).splice.progs[p]
          = { d.splice.progs[p] with active := some { b with endF := k + 1, cause := .cancelCue } } := by
        rw [hupd]
        simp [hsplice]
      rw [takeCancel_active x hfind hactive hcue hlast hbefore he, if_pos rfl]
      exact prog_endRange (b := { b with endF := k + 1, cause := .cancelCue }) (by rw [hprog]) (by rw [hprog]; exact hended) x
    · exact takeCancel_unknown x hfind (fun b' hb' => .inr (by rw [hactive] at hb'; cases hb'; exact hpast))
    · exact takeCancel_unknown x hfind (fun b hb => .inl (hother b hb))
  case expiry =>
    intro x slot k p c d g kept d1 henabled hactive hqueue hquery
    have hkept : pushExpired c.id g.expired = kept ++ [c.id] := by
      by_cases hroom : g.expired.length < 4
      · have hfew : ¬ Config.expiredSize ≤ g.expired.length := Nat.not_le.mpr hroom
        simp only [pushExpired, kept, hroom, if_true, hfew, if_false]
      · have hmany : Config.expiredSize ≤ g.expired.length := Nat.not_lt.mp hroom
        simp only [pushExpired, kept, hroom, if_false, hmany, if_true]
    have hsplice : (count x .cue 3 d).splice = d.splice := (count_within x d .cue 3).splice_eq (by decide)
    have hexpired : d.expire x p c.id = d1 := by
      simp only [Device.expire, Device.updProg, vmodify, hsplice, d1]
      rw [← hkept]
    have hprog := prog_expire x p c.id d
    have hone : ((d.expire x p c.id).splice.progs[p]).queue = [c] := by
      rw [hprog]
      exact hqueue
    refine ⟨fun hbefore hlater => ?_, fun hk hfall => ?_, fun hk hfall => ?_⟩
    · rw [programmeTurn_of_query (d' := d) henabled hqueue hquery (by rw [isBefore, if_pos hbefore]) hactive, testHeads_of_later hqueue hlater]
    · have hdue : expireQuery x p c d = armCue x p c.id .blank .expired (d.expire x p c.id) := by
        rw [expireQuery_eq, applyFallback_blank hfall]
      have hnow : (armCue x p c.id .blank .expired (d.expire x p c.id)).splice.progs[p]
          = { (d.expire x p c.id).splice.progs[p] with queue := [{ c with decision := .blank, cause := .expired }] } := by
        rw [armCue, prog_setQueue, hone]
        simp only [List.map_cons, List.map_nil, beq_self_eq_true, if_true]
      have hlater : isAfter c.out k = true := by
        have := isAfter_succ (c.out - 1)
        rw [hk]
        simpa using this
      rw [programmeTurn_of_query (d' := armCue x p c.id .blank .expired (d.expire x p c.id)) henabled hqueue hquery
        (by rw [hk, isBefore, isAfter_irrefl, if_neg (by decide), hdue]) (by rw [hnow, hprog]; exact hactive),
        testHeads_of_later (c := { c with decision := .blank, cause := .expired }) (l := []) (by rw [hnow]) hlater]
      rw [armCue_eq, decideCue_of_one hone, hexpired]
    · have hdue : expireQuery x p c d = cueRecord x p c .passed .expired (removeCue x p c.id (d.expire x p c.id)) := by
        rw [expireQuery_eq, applyFallback_pass hfall]
      have hnow : (cueRecord x p c .passed .expired (removeCue x p c.id (d.expire x p c.id))).splice.progs[p]
          = { (d.expire x p c.id).splice.progs[p] with queue := [] } := by
        rw [cueRecord, (immediateRecord_within x p c.id c.slotCode c.confirm _ _ _).splice_eq (by decide), removeCue, prog_setQueue, hone]
        simp only [List.filter_cons, List.filter_nil, bne_self_eq_false, Bool.false_eq_true, if_false]
      rw [programmeTurn_of_query (d' := cueRecord x p c .passed .expired (removeCue x p c.id (d.expire x p c.id))) henabled hqueue hquery
        (by rw [hk, isBefore, isAfter_irrefl, if_neg (by decide), hdue]) (by rw [hnow, hprog]; exact hactive),
        testHeads_of_empty (by rw [hnow]), removeCue_eq, withoutCue_of_one hone, hexpired]
      rfl

end Sys2Proof.Machine
end

section
/-! PROOFS. ProgrammeReset: the emptied queue, the work ended on the splice work queue, and the closed breaks (R153). -/

namespace Sys2Proof.Machine

/-! ### The splice engine's own parts -/

/-- The parts that splice work changes. -/
def workParts : List Part := [.mem, .slots, .arb, .cat, .lists, .splice, .asrun, .counters, .ports]

section Within

variable (x : Site) (d : Device)

theorem leaveSpliceQueue_within (slot : SlotNo) : d.Within [.splice] (leaveSpliceQueue slot d) := setSplice_within d _

theorem settleFrame_within (slot : SlotNo) : d.Within [.slots, .splice] (settleFrame slot d) := by
  unfold settleFrame
  split
  · exact ((updSlot_within d _ _).mono (by decide)).trans ((leaveSpliceQueue_within _ _).mono (by decide))
  · exact .refl _ d

theorem endWork_within (close : Bool) (p : ProgNo) (brk : Nat) : d.Within [.cat, .lists, .splice, .asrun, .ports] (endWork x close p brk d) := by
  unfold endWork
  dsimp only
  split
  · exact ((updBreak_within d _ _ _).mono (by decide)).trans (closeIfDone_within x _ p _)
  · exact (updBreak_within d _ _ _).mono (by decide)

theorem endWorkOn_within (close : Bool) (r : Record) (p : ProgNo) :
    d.Within [.cat, .lists, .splice, .asrun, .ports] (endWorkOn x close r p d) := by
  unfold endWorkOn
  split
  · exact .refl _ d
  · exact endWork_within x d close p _

theorem withdrawSplice_within (q : SlotNo → ProgNo → Bool) : d.Within [.arb] (withdrawSplice q d) := by
  obtain ⟨a, ha⟩ := withdrawSplice_eq q d
  rw [ha]
  exact setArb_within d a

theorem askSplice_within : d.Within [.arb, .counters, .ports] (askSplice x d) := by
  unfold askSplice
  split
  · exact .refl _ d
  · split
    · exact .refl _ d
    · split
      · exact .refl _ d
      · exact ask_within x d _ _

/-! #### The effect of a SPLICE burst, in its steps -/

/-- The device once a replacing cell stands in its position, counted and described (R148). -/
def Device.putReplacement (d : Device) (x : Site) (slot : SlotNo) (pl : Fin 256) (w : Replacement) : Device :=
  (count x .clipCell w.sub { d with mem := memWriteRun d.mem (slotAddress slot pl) w.cell }).updSlot slot (fun r =>
    { r with headers := replaceEntry w.entry r.headers, cursor := r.cursor.map (· + 1) })

/-- The device once a programme's work on a frame has ended where no position of it is left. -/
def Device.endWorkIfDone (d : Device) (x : Site) (close : Bool) (slot : SlotNo) (p : ProgNo) (brk : Nat) : Device :=
  if (d.slots[slot]).openProgs.contains p then d else endWork x close p brk d

theorem spliceWrite_eq {slot : SlotNo} {p : ProgNo} {m : Mark} {b : Break} {d : Device} (hmark : (d.slots[slot]).markOf p = some m)
    (hbreak : getBreak p m.brk d = some b) (x : Site) (close : Bool) (pl : Fin 256) :
    spliceWrite x close slot pl p d = settleFrame slot (Device.endWorkIfDone
      (updBreak p m.brk (fun _ => (advanceSource p b (d.putReplacement x slot pl (replacement x p b (pl.val + 1) d))).1)
        (advanceSource p b (d.putReplacement x slot pl (replacement x p b (pl.val + 1) d))).2) x close slot p m.brk) := by
  simp only [spliceWrite, hmark, hbreak]
  rfl

theorem spliceWrite_none {slot : SlotNo} {p : ProgNo} {d : Device}
    (h : ∀ m b, (d.slots[slot]).markOf p = some m → getBreak p m.brk d ≠ some b) (x : Site) (close : Bool) (pl : Fin 256) :
    spliceWrite x close slot pl p d = d := by
  unfold spliceWrite
  split
  · rfl
  · next m hm =>
    split
    · rfl
    · next b hb => exact absurd hb (h m b hm)

theorem putReplacement_within (slot : SlotNo) (pl : Fin 256) (w : Replacement) :
    d.Within [.mem, .slots, .counters, .ports] (d.putReplacement x slot pl w) :=
  (((setMem_within d _).mono (by decide)).trans ((count_within x _ _ _).mono (by decide))).trans ((updSlot_within _ _ _).mono (by decide))

theorem endWorkIfDone_within (close : Bool) (slot : SlotNo) (p : ProgNo) (brk : Nat) :
    d.Within [.cat, .lists, .splice, .asrun, .ports] (d.endWorkIfDone x close slot p brk) := by
  unfold Device.endWorkIfDone
  split
  · exact .refl _ d
  · exact endWork_within x d close p brk

/-- A SPLICE burst either has no effect or has its steps. -/
theorem spliceWrite_cases (close : Bool) (slot : SlotNo) (pl : Fin 256) (p : ProgNo) :
    spliceWrite x close slot pl p d = d ∨ ∃ m b, (d.slots[slot]).markOf p = some m ∧ getBreak p m.brk d = some b := by
  by_cases h : ∃ m b, (d.slots[slot]).markOf p = some m ∧ getBreak p m.brk d = some b
  · exact .inr h
  · exact .inl (spliceWrite_none (fun m b hm hb => h ⟨m, b, hm, hb⟩) x close pl)

theorem spliceWrite_within (close : Bool) (slot : SlotNo) (pl : Fin 256) (p : ProgNo) :
    d.Within workParts (spliceWrite x close slot pl p d) := by
  rcases spliceWrite_cases x d close slot pl p with h | ⟨m, b, hmark, hbreak⟩
  · rw [h]
    exact .refl _ d
  · rw [spliceWrite_eq hmark hbreak]
    exact ((((putReplacement_within x d slot pl _).mono (by decide)).trans ((advanceSource_within _ p b).mono (by decide))).trans
      ((updBreak_within _ _ _ _).mono (by decide))).trans (((endWorkIfDone_within x _ close slot p _).mono (by decide)).trans
      ((settleFrame_within _ slot).mono (by decide)))

theorem completeGranted_within (p : ProgNo) : d.Within workParts (completeGranted x p d) := by
  unfold completeGranted
  split
  · split
    · exact (spliceWrite_within x d false _ _ p).trans ((setArb_within _ _).mono (by decide))
    · exact .refl _ d
  · exact .refl _ d

end Within

/-! ### What ending work leaves of the programmes (R153) -/

/-- The other programmes are as they were, and so are the queue, the expired list and the number of breaks of this one. -/
def KeepsBreaks (p : ProgNo) (d d' : Device) : Prop :=
  (∀ o : ProgNo, o ≠ p → d'.splice.progs[o] = d.splice.progs[o])
    ∧ (d'.splice.progs[p]).queue = (d.splice.progs[p]).queue ∧ (d'.splice.progs[p]).expired = (d.splice.progs[p]).expired
    ∧ (d'.splice.progs[p]).ended.length = (d.splice.progs[p]).ended.length
    ∧ (d'.splice.progs[p]).active.isSome = (d.splice.progs[p]).active.isSome

namespace KeepsBreaks

variable {p : ProgNo} {d d' d'' : Device}

theorem of_progs (h : d'.splice.progs = d.splice.progs) : KeepsBreaks p d d' := by
  unfold KeepsBreaks
  rw [h]
  exact ⟨fun _ _ => rfl, rfl, rfl, rfl, rfl⟩

theorem of_splice (h : d'.splice = d.splice) : KeepsBreaks p d d' := of_progs (congrArg Splice.progs h)

theorem trans (h : KeepsBreaks p d d') (h' : KeepsBreaks p d' d'') : KeepsBreaks p d d'' := by
  obtain ⟨ho, hq, he, hn, ha⟩ := h
  obtain ⟨ho', hq', he', hn', ha'⟩ := h'
  exact ⟨fun o hne => (ho' o hne).trans (ho o hne), hq'.trans hq, he'.trans he, hn'.trans hn, ha'.trans ha⟩

theorem updBreak (id : Nat) (f : Break → Break) (d : Device) : KeepsBreaks p d (Machine.updBreak p id f d) := by
  have hself : (Machine.updBreak p id f d).splice.progs[p]
      = (d.splice.progs[p]).mapBreaks (fun b => if b.id == id then f b else b) := vmodify_get_self ..
  refine ⟨fun o hne => vmodify_get_other _ hne _, ?_⟩
  rw [hself]
  exact ⟨rfl, rfl, List.length_map .., Option.isSome_map ..⟩

theorem foldl {α : Type} {step : Device → α → Device} (hstep : ∀ (d : Device) (a : α), KeepsBreaks p d (step d a)) (l : List α)
    (d : Device) : KeepsBreaks p d (l.foldl step d) := by
  induction l generalizing d with
  | nil => exact of_splice rfl
  | cons a l ih => exact (hstep d a).trans (ih _)

end KeepsBreaks

theorem settleFrame_keepsBreaks (p : ProgNo) (slot : SlotNo) (d : Device) : KeepsBreaks p d (settleFrame slot d) := by
  unfold settleFrame
  split
  · exact .of_progs rfl
  · exact .of_splice rfl

/-- Work that ends without closing a break. -/
theorem endWorkOn_keepsBreaks (x : Site) (r : Record) (p : ProgNo) (d : Device) : KeepsBreaks p d (endWorkOn x false r p d) := by
  unfold endWorkOn
  split
  · exact .of_splice rfl
  · exact .updBreak _ _ d

theorem endWorkIfDone_keepsBreaks (x : Site) (slot : SlotNo) (p : ProgNo) (brk : Nat) (d : Device) :
    KeepsBreaks p d (d.endWorkIfDone x false slot p brk) := by
  unfold Device.endWorkIfDone
  split
  · exact .of_splice rfl
  · exact .updBreak _ _ d

theorem spliceWrite_keepsBreaks (x : Site) (slot : SlotNo) (pl : Fin 256) (p : ProgNo) (d : Device) :
    KeepsBreaks p d (spliceWrite x false slot pl p d) := by
  rcases spliceWrite_cases x d false slot pl p with h | ⟨m, b, hmark, hbreak⟩
  · rw [h]
    exact .of_splice rfl
  · rw [spliceWrite_eq hmark hbreak]
    have hput := putReplacement_within x d slot pl (replacement x p b (pl.val + 1) d)
    have hadvance := advanceSource_within (d.putReplacement x slot pl (replacement x p b (pl.val + 1) d)) p b
    have hsource : KeepsBreaks p d (advanceSource p b (d.putReplacement x slot pl (replacement x p b (pl.val + 1) d))).2 := by
      refine .of_splice ?_
      rw [hadvance.splice_eq (by decide), hput.splice_eq (by decide)]
    exact ((hsource.trans (.updBreak _ _ _)).trans (endWorkIfDone_keepsBreaks x slot p _ _)).trans (settleFrame_keepsBreaks p slot _)

theorem completeGranted_keepsBreaks (x : Site) (p : ProgNo) (d : Device) : KeepsBreaks p d (completeGranted x p d) := by
  unfold completeGranted
  split
  · split
    · exact (spliceWrite_keepsBreaks x _ _ p d).trans (.of_splice rfl)
    · exact .of_splice rfl
  · exact .of_splice rfl

/-- One frame's share of the end of a programme's work. -/
def endFrameWork (x : Site) (p : ProgNo) (d : Device) (i : SlotNo) : Device :=
  if (d.slots[i]).openProgs.contains p then settleFrame i ((endWorkOn x false d.slots[i] p d).updSlot i (dropItems p)) else d

theorem endProgrammeWork_eq (x : Site) (p : ProgNo) (d : Device) :
    endProgrammeWork x p d = (withdrawSplice (fun _ q => q == p) (completeGranted x p d)).splice.queue.foldl (endFrameWork x p)
      (withdrawSplice (fun _ q => q == p) (completeGranted x p d)) := rfl

theorem endProgrammeWork_within (x : Site) (p : ProgNo) (d : Device) : d.Within workParts (endProgrammeWork x p d) := by
  rw [endProgrammeWork_eq]
  refine ((completeGranted_within x d p).trans ((withdrawSplice_within _ _).mono (by decide))).trans (.foldl (fun d i => ?_) _ _)
  unfold endFrameWork
  split
  · exact (((endWorkOn_within x d false _ p).mono (by decide)).trans ((updSlot_within _ _ _).mono (by decide))).trans
      ((settleFrame_within _ i).mono (by decide))
  · exact .refl _ d

theorem updSlot_keepsBreaks (p : ProgNo) (i : SlotNo) (f : Record → Record) (d : Device) : KeepsBreaks p d (d.updSlot i f) :=
  .of_splice (Device.updSlot_splice ..)

theorem endFrameWork_keepsBreaks (x : Site) (p : ProgNo) (d : Device) (i : SlotNo) : KeepsBreaks p d (endFrameWork x p d i) := by
  unfold endFrameWork
  split
  · exact ((endWorkOn_keepsBreaks x _ p d).trans (updSlot_keepsBreaks p i _ _)).trans (settleFrame_keepsBreaks p i _)
  · exact .of_splice rfl

theorem endProgrammeWork_keepsBreaks (x : Site) (p : ProgNo) (d : Device) : KeepsBreaks p d (endProgrammeWork x p d) := by
  have hwithdraw : KeepsBreaks p (completeGranted x p d) (withdrawSplice (fun _ q => q == p) (completeGranted x p d)) :=
    .of_splice ((withdrawSplice_within _ _).splice_eq (by decide))
  rw [endProgrammeWork_eq]
  exact ((completeGranted_keepsBreaks x p d).trans hwithdraw).trans (.foldl (fun d i => endFrameWork_keepsBreaks x p d i) _ _)

/-! ### One programme of the splice engine replaced -/

/-- The splice engine with one programme replaced. -/
def Splice.setProg (sp : Splice) (p : ProgNo) (g : Programme) : Splice := { sp with progs := sp.progs.set p g }

theorem Splice.setProg_same (sp : Splice) (p : ProgNo) (g : Programme) : (sp.setProg p g).progs[p] = g := by simp [Splice.setProg]

theorem Splice.setProg_other (sp : Splice) {p o : ProgNo} (h : o ≠ p) (g : Programme) : (sp.setProg p g).progs[o] = sp.progs[o] := by
  have hval : p.val ≠ o.val := fun heq => h (Fin.ext heq.symm)
  simp [Splice.setProg, hval]

theorem Splice.setProg_setProg (sp : Splice) (p : ProgNo) (g g' : Programme) : (sp.setProg p g).setProg p g' = sp.setProg p g' := by
  simp [Splice.setProg]

theorem Splice.setProg_self (sp : Splice) (p : ProgNo) : sp.setProg p sp.progs[p] = sp := by simp [Splice.setProg]

/-! ### The emptied queue -/

/-- One cue taken out of the queue with its record (R153). -/
def emptyCue (x : Site) (p : ProgNo) (o : AsRunOutcome) (cause : Cause) (counted : Bool) (d : Device) (c : Cue) : Device :=
  cueRecord x p c o cause (removeCue x p c.id (if counted then count x .cue 5 d else d))

theorem emptyQueue_eq (x : Site) (p : ProgNo) (o : AsRunOutcome) (cause : Cause) (counted : Bool) (d : Device) :
    emptyQueue x p o cause counted d
      = ((d.splice.progs[p]).queue.foldl (emptyCue x p o cause counted) d).updProg p (fun g => { g with expired := [] }) := rfl

section Queue

variable (x : Site) (p : ProgNo) (o : AsRunOutcome) (cause : Cause) (counted : Bool)

theorem emptyCue_within (d : Device) (c : Cue) : d.Within [.splice, .asrun, .counters, .ports] (emptyCue x p o cause counted d c) := by
  have hcount : d.Within [.splice, .asrun, .counters, .ports] (if counted then count x .cue 5 d else d) := by
    split
    · exact (count_within x d _ _).mono (by decide)
    · exact .refl _ d
  exact (hcount.trans ((setQueue_within x p _ _).mono (by decide))).trans ((immediateRecord_within x p _ _ _ _ _ _).mono (by decide))

/-- A cue that leaves takes every cue of its id out of the queue, and changes nothing else of the splice engine. -/
theorem splice_emptyCue (d : Device) (c : Cue) :
    (emptyCue x p o cause counted d c).splice = d.splice.setProg p
      { d.splice.progs[p] with queue := (d.splice.progs[p]).queue.filter (fun a => a.id != c.id) } := by
  have hcount : (if counted then count x .cue 5 d else d).splice = d.splice := by
    split
    · exact (count_within x d _ _).splice_eq (by decide)
    · rfl
  rw [emptyCue, cueRecord, (immediateRecord_within x p _ _ _ _ _ _).splice_eq (by decide), removeCue, setQueue, splice_refresh,
    Device.updProg, hcount]
  rfl

theorem foldl_emptyCue (l : List Cue) (d : Device) :
    (l.foldl (emptyCue x p o cause counted) d).splice = d.splice.setProg p
      { d.splice.progs[p] with queue := (d.splice.progs[p]).queue.filter (fun a => l.all (fun c => a.id != c.id)) } := by
  induction l generalizing d with
  | nil =>
    have hall : (d.splice.progs[p]).queue.filter (fun _ => true) = (d.splice.progs[p]).queue := List.filter_true _
    simp only [List.foldl_nil, List.all_nil, hall]
    exact (Splice.setProg_self ..).symm
  | cons c l ih =>
    rw [List.foldl_cons, ih, splice_emptyCue, Splice.setProg_same, Splice.setProg_setProg, List.filter_filter]
    simp only [List.all_cons, Bool.and_comm]

/-- The queue and the expired list of a programme are emptied, and nothing else of the splice engine changes. -/
theorem splice_emptyQueue (d : Device) :
    (emptyQueue x p o cause counted d).splice = d.splice.setProg p
      { d.splice.progs[p] with queue := [], expired := [] } := by
  have hall : (d.splice.progs[p]).queue.filter (fun a => (d.splice.progs[p]).queue.all (fun c => a.id != c.id)) = [] := by
    rw [List.filter_eq_nil_iff]
    intro c hc hall
    simpa using List.all_eq_true.mp hall c hc
  have hfold := foldl_emptyCue x p o cause counted (d.splice.progs[p]).queue d
  rw [hall] at hfold
  rw [emptyQueue_eq, Device.updProg, hfold, vmodify, Splice.setProg_same]
  exact Splice.setProg_setProg ..

theorem emptyQueue_within (d : Device) : d.Within [.splice, .asrun, .counters, .ports] (emptyQueue x p o cause counted d) :=
  (Device.Within.foldl (emptyCue_within x p o cause counted) _ d).trans ((updProg_within _ p _).mono (by decide))

end Queue

/-! ### The closed breaks -/

section Close

variable (x : Site) (p : ProgNo) (cause : Cause)

/-- The programme of breaks that close one after the other. -/
theorem foldl_closeBreak (l : List Break) (d : Device) :
    (l.foldl (fun d b => closeBreak x p { b with cause := cause } d) d).splice = d.splice.setProg p
      (l.foldl (fun g b => removeBreak { b with cause := cause } g) d.splice.progs[p]) := by
  induction l generalizing d with
  | nil => rw [List.foldl_nil, List.foldl_nil, Splice.setProg_self]
  | cons b l ih =>
    have hstep : (closeBreak x p { b with cause := cause } d).splice
        = d.splice.setProg p (removeBreak { b with cause := cause } d.splice.progs[p]) := splice_closeBreak ..
    rw [List.foldl_cons, ih, hstep, Splice.setProg_same, Splice.setProg_setProg, List.foldl_cons]

/-- Breaks taken from a programme one after the other. -/
theorem foldl_removeBreak (l : List Break) (g : Programme) :
    (l.foldl (fun g b => removeBreak { b with cause := cause } g) g).ended = g.ended.filter (fun a => l.all (fun b => a.id != b.id))
      ∧ (l.foldl (fun g b => removeBreak { b with cause := cause } g) g).active
        = (if l.any (fun b => g.active.any (fun a => a.id == b.id)) then none else g.active)
      ∧ (l.foldl (fun g b => removeBreak { b with cause := cause } g) g).queue = g.queue
      ∧ (l.foldl (fun g b => removeBreak { b with cause := cause } g) g).expired = g.expired := by
  induction l generalizing g with
  | nil => simp
  | cons b l ih =>
    obtain ⟨hended, hactive, hqueue, hexpired⟩ := ih (removeBreak { b with cause := cause } g)
    rw [List.foldl_cons]
    refine ⟨?_, ?_, hqueue, hexpired⟩
    · rw [hended]
      simp [removeBreak, List.filter_filter, Bool.and_comm]
    · rw [hactive]
      cases hb : g.active.any (fun a => a.id == b.id) <;> simp [removeBreak, hb]

/-- With every break of a programme closed it has neither an active nor an ended one. -/
theorem prog_closeBreaks (d : Device) :
    ((closeBreaks x p cause d).splice.progs[p]).active = none ∧ ((closeBreaks x p cause d).splice.progs[p]).ended = []
      ∧ ((closeBreaks x p cause d).splice.progs[p]).queue = (d.splice.progs[p]).queue
      ∧ ((closeBreaks x p cause d).splice.progs[p]).expired = (d.splice.progs[p]).expired
      ∧ ∀ o : ProgNo, o ≠ p → (closeBreaks x p cause d).splice.progs[o] = d.splice.progs[o] := by
  have hsplice := foldl_closeBreak x p cause ((d.splice.progs[p]).ended ++ (d.splice.progs[p]).active.toList) d
  obtain ⟨hended, hactive, hqueue, hexpired⟩ :=
    foldl_removeBreak cause ((d.splice.progs[p]).ended ++ (d.splice.progs[p]).active.toList) d.splice.progs[p]
  unfold closeBreaks
  dsimp only
  rw [hsplice, Splice.setProg_same, hended, hactive, hqueue, hexpired]
  refine ⟨?_, ?_, rfl, rfl, fun o hne => Splice.setProg_other _ hne _⟩
  · cases hb : (d.splice.progs[p]).active with
    | none => simp
    | some b => simp
  · rw [List.filter_eq_nil_iff]
    intro b hb hall
    simpa using List.all_eq_true.mp hall b (List.mem_append_left _ hb)

theorem closeBreaks_within (d : Device) : d.Within [.cat, .lists, .splice, .asrun, .ports] (closeBreaks x p cause d) :=
  .foldl (fun d _ => closeBreak_within x d p _) _ d

end Close

/-- Settles O39: the queue is emptied, the work ends, the breaks close, and the next frame asks. -/
theorem programmeIsReset : Obligations.ProgrammeIsReset := by
  have hexec : ∀ {p : Port} {r : Request} {s : State}, Serving .programmeReset p r s → exec (.programmeReset p) s
      = .next (sendReply p r (ownProgrammeReset r s).status (ownProgrammeReset r s).extra (ownProgrammeReset r s).state) :=
    fun hserve => serve_serving hserve
  refine ⟨fun p r s b hserve hb hbody => ?_, fun p r s q hserve hbody => ?_⟩
  · have hnone : finOf 8 (byteAt r.body 0).toNat = none := by
      rw [hbody]
      exact finOf_eq_none hb
    rw [hexec hserve]
    simp only [ownProgrammeReset, hnone]
    rfl
  · obtain ⟨d0, hd0⟩ : ∃ d0, d0 = emptyQueue s.site q .cancelled .programmeReset true s.dev := ⟨_, rfl⟩
    obtain ⟨d1, hd1⟩ : ∃ d1, d1 = endProgrammeWork s.site q d0 := ⟨_, rfl⟩
    obtain ⟨d2, hd2⟩ : ∃ d2, d2 = closeBreaks s.site q .programmeReset d1 := ⟨_, rfl⟩
    have hprog : finOf 8 (byteAt r.body 0).toNat = some q := by
      rw [hbody]
      exact finOf_ofNat_val q
    have hempty : d0.splice = s.dev.splice.setProg q { s.dev.splice.progs[q] with queue := [], expired := [] } := by
      rw [hd0, splice_emptyQueue]
    obtain ⟨hother, hqueue, hexpired, hended, hactive⟩ : KeepsBreaks q d0 d1 := hd1 ▸ endProgrammeWork_keepsBreaks s.site q d0
    obtain ⟨hnoActive, hnoEnded, hqueue', hexpired', hother'⟩ := prog_closeBreaks s.site q .programmeReset d1
    rw [← hd2] at hnoActive hnoEnded hqueue' hexpired' hother'
    rw [hempty, Splice.setProg_same] at hqueue hexpired hended hactive
    have hcount : (d1.splice.progs[q]).active.toList.length = (s.dev.splice.progs[q]).active.toList.length := by
      have hlen : ∀ o : Option Break, o.toList.length = if o.isSome then 1 else 0 := fun o => by cases o <;> rfl
      rw [hlen, hlen, hactive]
    have hask := askSplice_within s.site d2
    have hwithin : s.dev.Within workParts (askSplice s.site d2) := by
      rw [hd2, hd1, hd0]
      exact ((((emptyQueue_within s.site q _ _ _ s.dev).mono (by decide)).trans (endProgrammeWork_within s.site q _)).trans
        ((closeBreaks_within s.site q _ _).mono (by decide))).trans ((askSplice_within s.site _).mono (by decide))
    have hsplice : (askSplice s.site d2).splice = d2.splice := hask.splice_eq (by decide)
    refine ⟨askSplice s.site d2, ?_, ?_⟩
    · rw [hexec hserve]
      simp only [ownProgrammeReset, hprog, ← hd0, ← hd1, ← hd2, hended, hcount, beBytes_one]
      rfl
    · rw [hsplice]
      refine ⟨hqueue'.trans hqueue, hnoActive, hnoEnded, hexpired'.trans hexpired, fun o hne => ?_, hwithin.em_eq (by decide),
        hwithin.sel_eq (by decide), hwithin .intakes (by decide)⟩
      rw [hother' o hne, hother o hne, hempty, Splice.setProg_other _ hne]

end Sys2Proof.Machine
end

section
/-! PROOFS. The completion of a SPLICE burst, and the source of a break's cells (R128, R129, R147 to R149). -/

namespace Sys2Proof.Machine

/-! ### The filler and the play counts (R105, R149) -/

theorem raisePlay_of_ready {id : ClipId} {d : Device} {place : PlaceNo} {c : ClipRecord} (hfind : findClip id d = some place)
    (hplace : d.cat.places[place] = some c) (hready : c.state = .ready) :
    raisePlay id d = some (setPlace place (some { c with play := c.play + 1 }) d) := by
  simp only [raisePlay, clipRecord_of_place hfind hplace, hready, beq_self_eq_true, if_true, updClip_of_place hfind hplace]

theorem raisePlay_of_not_ready {id : ClipId} {d : Device} (h : ∀ c, clipRecord id d = some c → c.state ≠ .ready) : raisePlay id d = none := by
  unfold raisePlay
  split
  · rfl
  · next c hc =>
    rw [if_neg]
    simpa using h c hc

/-- A break without a READY filler turns to null cells. -/
theorem toFiller_null {b : Break} {d : Device} (h : ∀ f c, b.filler = some f → clipRecord f d = some c → c.state ≠ .ready) :
    toFiller b d = ({ b with source := .null, playing := none }, d) := by
  unfold toFiller
  split
  · rfl
  · next f hf => rw [raisePlay_of_not_ready (fun c => h f c hf)]

/-- A READY filler is drawn from its first cell, with its play count raised and the draft flagged. -/
theorem toFiller_ready {b : Break} {f : ClipId} {d : Device} {place : PlaceNo} {c : ClipRecord} (hfiller : b.filler = some f)
    (hfind : findClip f d = some place) (hplace : d.cat.places[place] = some c) (hready : c.state = .ready) :
    toFiller b d = ({ b with source := .filler, playing := some f, clipPos := 0 },
      onDraft b.draft (fun t => { t with filler := true }) (setPlace place (some { c with play := c.play + 1 }) d)) := by
  simp only [toFiller, hfiller, raisePlay_of_ready hfind hplace hready]

/-! ### The walk along a list's entries (R128, R129) -/

section Walk

variable {p : ProgNo} {o : EntryNo} {rest : List EntryNo} {b : Break} {d : Device} {z : RingEntry}

/-- RETIRING entries that the break does not hold are passed over. -/
theorem startEntries_skipped {skipped : List EntryNo}
    (h : ∀ e ∈ skipped, ∃ y, d.lists.pool[e] = some y ∧ y.state = .retiring ∧ y.heldBy b.id = false) :
    startEntries p (skipped ++ rest) b d = startEntries p rest b d := by
  induction skipped with
  | nil => rfl
  | cons e skipped ih =>
    obtain ⟨y, hy, hstate, hheld⟩ := h e List.mem_cons_self
    have hretiring : (y.state == .retiring) = true := by rw [hstate]; rfl
    rw [List.cons_append, startEntries, hy]
    simp only [hheld, hretiring, Bool.false_eq_true, if_false, if_true]
    exact ih (fun e he => h e (List.mem_cons_of_mem _ he))

variable (hz : d.lists.pool[o] = some z)

include hz

theorem startEntries_held (hheld : z.heldBy b.id = true) : startEntries p (o :: rest) b d = toFiller b d := by
  rw [startEntries, hz]
  simp only [hheld, if_true]

/-- A break with an entry started. -/
def Break.take (b : Break) (o : EntryNo) (z : RingEntry) : Break :=
  { b with start := b.start.or (some o), current := some o, items := b.items ++ [⟨z.clip, 0, false⟩] }

variable (hheld : z.heldBy b.id = false) (hstate : z.state ≠ .retiring)

include hheld hstate

/-- An entry whose clip is READY is drawn from its first cell, with the clip's play count raised. -/
theorem startEntries_ready {place : PlaceNo} {c : ClipRecord} (hfind : findClip z.clip d = some place)
    (hplace : d.cat.places[place] = some c) (hready : c.state = .ready) :
    startEntries p (o :: rest) b d = ({ b.take o z with source := .list, playing := some z.clip, clipPos := 0 },
      setPlace place (some { c with play := c.play + 1 }) (setEntry o (some (z.start ⟨p, b.id⟩)) d)) := by
  have hgoing : (z.state == .retiring) = false := by simpa using hstate
  have hraise := raisePlay_of_ready (d := setEntry o (some (z.start ⟨p, b.id⟩)) d) hfind hplace hready
  rw [startEntries, hz]
  simp only [hheld, hgoing, Bool.false_eq_true, if_false, hraise]
  rfl

/-- An entry whose clip is not READY ends at once. -/
theorem startEntries_not_ready (hclip : ∀ c, clipRecord z.clip d = some c → c.state ≠ .ready) :
    startEntries p (o :: rest) b d = startEntries p rest (b.take o z) (setEntry o (some (z.start ⟨p, b.id⟩)) d) := by
  have hgoing : (z.state == .retiring) = false := by simpa using hstate
  have hraise : raisePlay z.clip (setEntry o (some (z.start ⟨p, b.id⟩)) d) = none := raisePlay_of_not_ready hclip
  rw [startEntries, hz]
  simp only [hheld, hgoing, Bool.false_eq_true, if_false, hraise]
  rfl

end Walk

/-! ### The source after a cell (R129, R149) -/

/-- A ring turned at an entry it names once before nothing equal to it. -/
theorem ringAfter_split {e : EntryNo} {pre post : List EntryNo} (h : e ∉ pre) : ringAfter e (pre ++ e :: post) = post ++ pre ++ [e] := by
  have hne : ∀ a ∈ pre, (a != e) = true := fun a ha => bne_iff_ne.mpr (fun heq => h (heq ▸ ha))
  have hdrop : (pre ++ e :: post).dropWhile (· != e) = e :: post := by
    rw [List.dropWhile_append_of_pos hne]
    simp
  have htake : (pre ++ e :: post).takeWhile (· != e) = pre := by
    rw [List.takeWhile_append_of_pos hne]
    simp
  simp only [ringAfter, ringFrom, hdrop, htake, List.cons_append]

theorem clipLength_of_place {id : ClipId} {d : Device} {place : PlaceNo} {c : ClipRecord} (hfind : findClip id d = some place)
    (hplace : d.cat.places[place] = some c) : clipLength id d = c.length := by
  rw [clipLength, clipRecord_of_place hfind hplace]

/-- At the last cell of an entry's clip the entries after it are walked along. -/
theorem advanceSource_at_end {p : ProgNo} {b : Break} {clip : ClipId} {d : Device} {place : PlaceNo} {c : ClipRecord} {l : ListNo}
    {e : EntryNo} (hsource : b.source = .list) (hplaying : b.playing = some clip) (hfind : findClip clip d = some place)
    (hplace : d.cat.places[place] = some c) (hend : c.length ≤ b.clipPos + 1) (hlist : b.list = some l) (hcurrent : b.current = some e) :
    advanceSource p b d = startEntries p (ringAfter e d.lists.rings[l])
      { b with
        clipPos := b.clipPos + 1
        playing := none
        items := updLast (fun i => { i with played := i.played + 1, completed := true }) b.items }
      (setPlace place (some { c with play := c.play - 1 }) d) := by
  have hlength : clipLength clip d ≤ b.clipPos + 1 := by rw [clipLength_of_place hfind hplace]; exact hend
  have hlower : lowerPlay clip d = setPlace place (some { c with play := c.play - 1 }) d := updClip_of_place hfind hplace _
  simp only [advanceSource, hsource, hplaying, hlength, if_true, hlist, hcurrent, hlower, updLast_updLast]

theorem advanceSource_filler {p : ProgNo} {b : Break} {clip : ClipId} {d : Device} (hsource : b.source = .filler)
    (hplaying : b.playing = some clip) :
    advanceSource p b d = ({ b with clipPos := if clipLength clip d ≤ b.clipPos + 1 then 0 else b.clipPos + 1 }, d) := by
  simp only [advanceSource, hsource, hplaying]
  split <;> rfl

/-! ### What the source reads of the device -/

/-- Two devices with the same catalogue, lists and as-run unit. -/
def SameBooks (d d' : Device) : Prop := d'.cat = d.cat ∧ d'.lists = d.lists ∧ d'.asrun = d.asrun

/-- Two results with the same break, on devices with the same books. -/
def SameSource (r r' : Break × Device) : Prop := r'.1 = r.1 ∧ SameBooks r.2 r'.2

section Congr

variable {d d' : Device} (h : SameBooks d d')

include h

theorem updClip_congr (id : ClipId) (f : ClipRecord → ClipRecord) : SameBooks (updClip id f d) (updClip id f d') := by
  obtain ⟨hcat, hlists, hasrun⟩ := h
  have hfind : findClip id d' = findClip id d := findClip_congr (congrArg Catalogue.places hcat)
  unfold updClip
  rw [hfind]
  split
  · exact ⟨hcat, hlists, hasrun⟩
  · exact ⟨by simp only [setPlace, Device.setCat, hcat], hlists, hasrun⟩

theorem clipRecord_congr (id : ClipId) : clipRecord id d' = clipRecord id d := by
  unfold clipRecord findClip
  rw [h.1]

/-- A play count is raised on both devices or on neither. -/
theorem raisePlay_congr (id : ClipId) :
    raisePlay id d = none ∧ raisePlay id d' = none ∨ ∃ e e', raisePlay id d = some e ∧ raisePlay id d' = some e' ∧ SameBooks e e' := by
  unfold raisePlay
  rw [clipRecord_congr h id]
  split
  · exact .inl ⟨rfl, rfl⟩
  · split
    · exact .inr ⟨_, _, rfl, rfl, updClip_congr h id _⟩
    · exact .inl ⟨rfl, rfl⟩

theorem onDraft_congr (n : Option DraftNo) (f : Draft → Draft) : SameBooks (onDraft n f d) (onDraft n f d') := by
  obtain ⟨hcat, hlists, hasrun⟩ := h
  unfold onDraft
  split
  · exact ⟨hcat, hlists, hasrun⟩
  · exact ⟨hcat, hlists, by simp only [Device.setAsRun, hasrun]⟩

theorem setEntry_congr (e : EntryNo) (z : Option RingEntry) : SameBooks (setEntry e z d) (setEntry e z d') := by
  obtain ⟨hcat, hlists, hasrun⟩ := h
  exact ⟨hcat, by simp only [setEntry, Device.setLists, hlists], hasrun⟩

theorem toFiller_congr (b : Break) : SameSource (toFiller b d) (toFiller b d') := by
  cases hf : b.filler with
  | none =>
    simp only [toFiller, hf]
    exact ⟨rfl, h⟩
  | some f =>
    rcases raisePlay_congr h f with ⟨hno, hno'⟩ | ⟨e, e', he, he', hsame⟩
    · simp only [toFiller, hf, hno, hno']
      exact ⟨rfl, h⟩
    · simp only [toFiller, hf, he, he']
      exact ⟨rfl, onDraft_congr hsame _ _⟩

theorem startEntries_congr (p : ProgNo) (l : List EntryNo) (b : Break) : SameSource (startEntries p l b d) (startEntries p l b d') := by
  induction l generalizing b d d' with
  | nil => exact toFiller_congr h b
  | cons o rest ih =>
    have hpool : d'.lists.pool[o] = d.lists.pool[o] := by rw [h.2.1]
    cases hz : d.lists.pool[o] with
    | none =>
      simp only [startEntries, hpool, hz]
      exact ih h b
    | some z =>
      simp only [startEntries, hpool, hz]
      split
      · exact toFiller_congr h b
      · split
        · exact ih h b
        · have hset := setEntry_congr h o (some (z.start ⟨p, b.id⟩))
          rcases raisePlay_congr hset z.clip with ⟨hno, hno'⟩ | ⟨e, e', he, he', hsame⟩
          · simp only [hno, hno']
            exact ih hset _
          · simp only [he, he']
            exact ⟨rfl, hsame⟩

/-- The source after a cell depends on the catalogue, the lists and the as-run unit alone. -/
theorem advanceSource_congr (p : ProgNo) (b : Break) : SameSource (advanceSource p b d) (advanceSource p b d') := by
  have hlength : ∀ clip, clipLength clip d' = clipLength clip d := clipLength_congr h.1
  unfold advanceSource
  dsimp only
  split
  · rw [hlength, h.2.1]
    split
    · exact startEntries_congr (updClip_congr h _ _) p _ _
    · exact ⟨rfl, h⟩
  · rw [hlength]
    split
    · exact ⟨rfl, h⟩
    · exact ⟨rfl, h⟩
  · exact ⟨rfl, h⟩

end Congr

/-! ### A SPLICE burst with positions of its programme to come (R147, R148) -/

theorem openProgs_contains {r : Record} {p : ProgNo} {w : WorkItem} {more : List WorkItem} (h : r.openItems = w :: more)
    (hw : w.prog = p) : r.openProgs.contains p = true := by
  simp [Record.openProgs, h, hw]

section Burst

variable {slot : SlotNo} {p : ProgNo} {m : Mark} {b : Break} {n : Nat} {w : WorkItem} {more : List WorkItem} {d : Device}
  (hmarks : (d.slots[slot]).marks = [m]) (hprog : m.prog = p) (hactive : (d.splice.progs[p]).active = some b) (hid : b.id = m.brk)
  (hended : (d.splice.progs[p]).ended = []) (hclosed : (d.splice.progs[p]).closed = []) (hcursor : (d.slots[slot]).cursor = some n)
  (hmore : (d.slots[slot]).work.drop (n + 1) = w :: more) (hw : w.prog = p)

include hmarks hprog hactive hid hended hclosed hcursor hmore hw

/-- The burst's effect is the replacing cell and what becomes of the break's source. -/
theorem spliceWrite_more (x : Site) (pl : Fin 256) :
    ∃ d', spliceWrite x true slot pl p d = d'
      ∧ d'.mem = memWriteRun d.mem (slotAddress slot pl) (replacement x p b (pl.val + 1) d).cell
      ∧ d'.slots = d.slots.set slot
        { d.slots[slot] with
          cursor := some (n + 1)
          headers := replaceEntry (replacement x p b (pl.val + 1) d).entry (d.slots[slot]).headers }
      ∧ d'.em = d.em ∧ d'.sel = d.sel ∧ d'.counters = (count x .clipCell (replacement x p b (pl.val + 1) d).sub d).counters
      ∧ d'.splice = d.splice.setProg p { d.splice.progs[p] with active := some (advanceSource p b d).1 }
      ∧ SameBooks (advanceSource p b d).2 d' := by
  subst hprog
  have hmark : (d.slots[slot]).markOf m.prog = some m := Record.markOf_of_one hmarks
  have hbreak : getBreak m.prog m.brk d = some b := hid ▸ getBreak_of_active hactive
  rw [spliceWrite_eq hmark hbreak]
  obtain ⟨W, hW⟩ : ∃ W, W = replacement x m.prog b (pl.val + 1) d := ⟨_, rfl⟩
  obtain ⟨D, hD⟩ : ∃ D, D = d.putReplacement x slot pl W := ⟨_, rfl⟩
  rw [← hW, ← hD]
  have hput : d.Within [.mem, .slots, .counters, .ports] D := hD ▸ putReplacement_within x d slot pl W
  have hadv := advanceSource_within D m.prog b
  obtain ⟨hsame, hbooks⟩ := advanceSource_congr ⟨hput.cat_eq (by decide), hput.lists_eq (by decide), hput.asrun_eq (by decide)⟩ m.prog b
  obtain ⟨A, hA⟩ : ∃ A, A = (advanceSource m.prog b D).2 := ⟨_, rfl⟩
  rw [← hA] at hadv hbooks ⊢
  have hsplice : A.splice = d.splice := (hadv.splice_eq (by decide)).trans (hput.splice_eq (by decide))
  have hmem : D.mem = memWriteRun d.mem (slotAddress slot pl) W.cell := by
    rw [hD]
    exact (count_within x _ .clipCell W.sub).mem_eq (by decide)
  have hslots : D.slots = d.slots.set slot
      { d.slots[slot] with cursor := some (n + 1), headers := replaceEntry W.entry (d.slots[slot]).headers } := by
    rw [hD, Device.putReplacement, Device.updSlot_slots, (count_within x _ .clipCell W.sub).slots_eq (by decide), vmodify, hcursor]
    rfl
  have hcounters : D.counters = (count x .clipCell W.sub d).counters := by
    rw [hD]
    exact counters_count_congr (d := d) (by rfl) x _ _
  have hupd := updBreak_of_active (p := m.prog) (b := b) (d := A) (by rw [hsplice]; exact hactive) (by rw [hsplice]; exact hended)
    (by rw [hsplice]; exact hclosed) (fun _ => (advanceSource m.prog b d).1)
  rw [hsame, ← hid, hupd]
  have hrecord : A.slots[slot] = { d.slots[slot] with cursor := some (n + 1), headers := replaceEntry W.entry (d.slots[slot]).headers } := by
    rw [hadv.slots_eq (by decide), hslots]
    simp
  have hopen : (A.slots[slot]).openItems = w :: more := by
    rw [Record.openItems_of_cursor (n := n + 1) (by rw [hrecord]), hrecord]
    exact hmore
  have hworks : (A.slots[slot]).openProgs.contains m.prog = true := by
    exact openProgs_contains hopen hw
  have hgoing : ∀ sp, Device.endWorkIfDone { A with splice := sp } x true slot m.prog b.id = { A with splice := sp } := by
    intro sp
    unfold Device.endWorkIfDone
    rw [if_pos hworks]
  have hstays : ∀ sp, settleFrame slot { A with splice := sp } = { A with splice := sp } := by
    intro sp
    unfold settleFrame
    rw [if_neg]
    change ¬ (A.slots[slot]).openItems.isEmpty = true
    rw [hopen]
    exact Bool.false_ne_true
  rw [hgoing, hstays]
  refine ⟨_, rfl, (hadv.mem_eq (by decide)).trans hmem, (hadv.slots_eq (by decide)).trans hslots,
    (hadv.em_eq (by decide)).trans (hput.em_eq (by decide)), (hadv.sel_eq (by decide)).trans (hput.sel_eq (by decide)),
    (hadv.counters_eq (by decide)).trans hcounters, ?_, hbooks⟩
  rw [hsplice]
  rfl

end Burst

/-! ### The replacing cell (R148) -/

section Replacing

variable {x : Site} {p : ProgNo} {b : Break} {d : Device}

theorem replacement_null (hsource : b.source = .null) (pos : Nat) : replacement x p b pos d = nullReplacement pos 3 := by
  simp only [replacement, chosenCell, hsource]

theorem chosenCell_playing {clip : ClipId} (hsource : b.source ≠ .null) (hplaying : b.playing = some clip) :
    chosenCell b d = some (readClipCell clip b.clipPos d) := by
  cases hs : b.source with
  | null => exact absurd hs hsource
  | list => simp only [chosenCell, hs, hplaying]
  | filler => simp only [chosenCell, hs, hplaying]

variable {clip : ClipId} (hsource : b.source ≠ .null) (hplaying : b.playing = some clip)

include hsource hplaying

theorem replacement_cell {c : Fin 8} {sid : Sid} (hbyte : byteAt (readClipCell clip b.clipPos d) 0 = BitVec.ofNat 8 c.val)
    (hsid : (x.progs[p]).comps[c] = some sid) (pos : Nat) :
    replacement x p b pos d = ⟨formHeader ⟨sid, .payload, false, 0, 0, BitVec.ofNat 16 pos⟩ ++ (readClipCell clip b.clipPos d).drop 1,
      ⟨pos, sid, .payload, some (p, c), false⟩, if b.source = .filler then 2 else 0⟩ := by
  simp only [replacement, chosenCell_playing hsource hplaying, hbyte, finOf_ofNat_val, hsid, beq_iff_eq]

theorem replacement_no_sid
    (hno : ∀ c : Fin 8, byteAt (readClipCell clip b.clipPos d) 0 = BitVec.ofNat 8 c.val → (x.progs[p]).comps[c] = none) (pos : Nat) :
    replacement x p b pos d = nullReplacement pos 1 := by
  simp only [replacement, chosenCell_playing hsource hplaying]
  split
  · rfl
  · next c hc =>
    have hval : (byteAt (readClipCell clip b.clipPos d) 0).toNat = c.val := by
      unfold finOf at hc
      split at hc
      · cases hc; rfl
      · cases hc
    have hbyte : byteAt (readClipCell clip b.clipPos d) 0 = BitVec.ofNat 8 c.val := by
      rw [← hval, BitVec.ofNat_toNat, BitVec.setWidth_eq]
    rw [hno c hbyte]

end Replacing

/-! ### What follows a SPLICE burst (R80, R147) -/

theorem exec_spliceBurstComplete {slot : SlotNo} {pl : Fin 256} {p : ProgNo} {cell : Bytes} {keep : Bool} {s : State}
    (hcur : s.dev.arb.current = some ⟨.splice, .splice slot pl p cell, keep⟩) :
    exec .spliceBurstComplete s = .next (s.setDev (afterSplice s.site slot (endBurst s.site
      (if keep then spliceWrite s.site true slot pl p s.dev else s.dev.store (.splice slot pl p cell))))) := by
  change execSpliceBurstComplete s = _
  simp only [execSpliceBurstComplete, hcur]

theorem afterSplice_filling {slot : SlotNo} {due : Due} {d : Device} (h : d.em.item = some ⟨.real slot, due, .filling⟩) (x : Site) :
    afterSplice x slot d = serveItems x (handleFrame x slot due (endLateFill x slot d)) := by
  simp only [afterSplice, h, if_true]

theorem afterSplice_other {slot : SlotNo} {d : Device} (h : ∀ due, d.em.item ≠ some ⟨.real slot, due, .filling⟩) (x : Site) :
    afterSplice x slot d = askSplice x d := by
  unfold afterSplice
  split
  · next i due hitem =>
    rw [if_neg]
    rintro rfl
    exact h due hitem
  · rfl

theorem Programme.with_active {g : Programme} {b : Break} (h : g.active = some b) : { g with active := some b } = g := by rw [← h]

/-- Settles O59: the burst's effect or its store alone, what follows it, and the rules of the source. -/
theorem spliceBurstWrites : Obligations.SpliceBurstWrites := by
  refine ⟨?burst, ?source⟩
  case burst =>
    intro slot pl p asked next s hnext
    have hafter : ∀ d : Device, d.em = s.dev.em → afterSplice s.site slot (endBurst s.site d) = next (endBurst s.site d) := by
      intro d hd
      have hem : (endBurst s.site d).em = s.dev.em := ((endBurst_within s.site d).em_eq (by decide)).trans hd
      rcases hnext with ⟨hother, rfl⟩ | ⟨due, hitem, rfl⟩
      · exact afterSplice_other (by rw [hem]; exact hother) _
      · exact afterSplice_filling (by rw [hem]; exact hitem) _
    refine ⟨fun hcur => ?discarded, ?kept⟩
    case discarded =>
      rw [exec_spliceBurstComplete hcur, if_neg (by decide), hafter]
      · rfl
      · rfl
    intro m b n w more hcur hmarks hprog hactive hid hended hclosed hcursor hmore hw stored written
    obtain ⟨d, hd, hmem, hslots, hem, hsel, hcounters, hsplice, hcat, hlists, hasrun⟩ :=
      spliceWrite_more hmarks hprog hactive hid hended hclosed hcursor hmore hw s.site pl
    have hexec : exec .spliceBurstComplete s = .next (s.setDev (next (endBurst s.site d))) := by
      rw [exec_spliceBurstComplete hcur, if_pos rfl, hd, hafter d hem]
    refine ⟨fun hnull => ?_, fun clip c sid hlist hplaying hwithin hbyte hsid => ?_, fun clip hsource hplaying => ?_⟩
    · have hadv : advanceSource p b s.dev = (b, s.dev) := advanceMany_null hnull p 1 s.dev
      rw [replacement_null hnull] at hmem hslots hcounters
      rw [hadv, Programme.with_active hactive, Splice.setProg_self] at hsplice
      rw [hadv] at hcat hlists
      exact ⟨d, hexec, ⟨⟨hmem, hslots, hem, hsel⟩, hcat, hlists⟩, hcounters, hsplice⟩
    · have hadv := advanceSource_within_clip hlist hplaying hwithin p
      rw [replacement_cell (by rw [hlist]; decide) hplaying hbyte hsid, hlist] at hmem hslots hcounters
      rw [hadv] at hsplice hcat hlists
      exact ⟨d, hexec, ⟨⟨hmem, hslots, hem, hsel⟩, hcat, hlists⟩, hcounters, hsplice⟩
    · intro cell advanced
      refine ⟨fun c sid hbyte hsid => ?_, fun hno => ?_⟩
      · rw [replacement_cell hsource hplaying hbyte hsid] at hmem hslots hcounters
        exact ⟨d, hexec, ⟨hmem, hslots, hem, hsel⟩, hcounters, hsplice, hcat, hlists, hasrun⟩
      · rw [replacement_no_sid hsource hplaying hno] at hmem hslots hcounters
        exact ⟨d, hexec, ⟨hmem, hslots, hem, hsel⟩, hcounters, hsplice, hcat, hlists, hasrun⟩
  case source =>
    intro p b d filled
    have hfilled : ∀ b d, filled b d (toFiller b d) := by
      intro b d
      refine ⟨toFiller_null, fun f place c hfiller hfind hplace hready => ?_⟩
      rw [toFiller_ready hfiller hfind hplace hready]
      cases b.draft <;> rfl
    refine ⟨fun hblank => ⟨fun l hlist => ?_, fun hlist => ?_⟩, fun clip place c hlist hplaying hfind hplace =>
      ⟨fun hmore => ?_, fun l e pre post hend hl hcurrent hring hpre => ?_⟩, fun clip hfiller hplaying => advanceSource_filler hfiller hplaying,
      fun skipped hskipped => ⟨?_, fun o rest z hz => ⟨fun hheld => ?_, fun hheld hstate => ?_⟩⟩⟩
    · simp only [beginSource, hblank, Bool.false_eq_true, if_false, hlist]
    · have hbegin : beginSource p b d = toFiller b d := by simp only [beginSource, hblank, Bool.false_eq_true, if_false, hlist]
      rw [hbegin]
      exact hfilled b d
    · exact advanceSource_within_clip hlist hplaying (by rw [clipLength_of_place hfind hplace]; exact hmore) p
    · rw [advanceSource_at_end hlist hplaying hfind hplace hend hl hcurrent, hring, ringAfter_split hpre]
      rfl
    · have hwalk := startEntries_skipped (p := p) (rest := []) hskipped
      rw [List.append_nil] at hwalk
      rw [hwalk]
      exact hfilled b d
    · rw [startEntries_skipped hskipped, startEntries_held hz hheld]
      exact hfilled b d
    · intro taken held
      refine ⟨fun place c hfind hplace hready => ?_, fun hclip => ?_⟩
      · rw [startEntries_skipped hskipped, startEntries_ready hz hheld hstate hfind hplace hready]
        rfl
      · rw [startEntries_skipped hskipped, startEntries_not_ready hz hheld hstate hclip]
        rfl

end Sys2Proof.Machine
end

section

/-! PROOFS. The close of a break: its list turned, its holds released, its draft closed and appended. Settled: O60. -/

namespace Sys2Proof.Machine

/-! ### One entry's hold released (R131) -/

/-- The entry without the break among its holders. -/
def RingEntry.left (z : RingEntry) (brk : Nat) : List Holder := z.holders.filter (fun h => h.brk != brk)

/-- Whether the release of the break's hold unlinks the entry. -/
def RingEntry.goes (z : RingEntry) (brk : Nat) : Bool := z.heldBy brk && (z.left brk).isEmpty && z.state == .retiring

/-- The entry once the break's hold is released; none where it is unlinked. -/
def RingEntry.release (z : RingEntry) (brk : Nat) : Option RingEntry :=
  if z.heldBy brk = false then some z
  else if z.left brk ≠ [] then some { z with holders := z.left brk }
  else if z.state = .retiring then none
  else some { z with state := .idle, holders := [] }

theorem RingEntry.release_eq_none {z : RingEntry} {brk : Nat} (h : z.goes brk = true) : z.release brk = none := by
  simp only [RingEntry.goes, Bool.and_eq_true, List.isEmpty_iff, beq_iff_eq] at h
  obtain ⟨⟨hheld, hleft⟩, hstate⟩ := h
  simp [RingEntry.release, hheld, hleft, hstate]

/-- A released entry is held by the break no more. -/
theorem RingEntry.heldBy_of_release {z z' : RingEntry} {brk : Nat} (h : z.release brk = some z') : z'.heldBy brk = false := by
  unfold RingEntry.release at h
  split at h
  · next hheld =>
    cases h
    exact hheld
  · split at h
    · cases h
      simp [RingEntry.heldBy, RingEntry.left]
    · split at h
      · cases h
      · cases h
        rfl

section Entry

variable {brk : Nat} {e : EntryNo} {z : RingEntry} {d : Device} (hz : d.lists.pool[e] = some z)

include hz

theorem releaseEntry_goes (hgoes : z.goes brk = true) : releaseEntry brk e d = lowerUse z.clip (d.withoutEntry e z.list) := by
  simp only [RingEntry.goes, RingEntry.left, Bool.and_eq_true, beq_iff_eq] at hgoes
  obtain ⟨⟨hheld, hleft⟩, hstate⟩ := hgoes
  simp only [releaseEntry, hz, hheld, hleft, hstate, Bool.not_true, Bool.false_eq_true, if_false, if_true]
  exact unlinkEntry_of_entry hz

theorem releaseEntry_stays (hstays : z.goes brk = false) : releaseEntry brk e d = setEntry e (z.release brk) d := by
  simp only [releaseEntry, hz]
  by_cases hheld : z.heldBy brk = true
  · by_cases hleft : z.left brk = []
    · have hstate : z.state ≠ .retiring := by
        intro hstate
        simp [RingEntry.goes, hheld, hleft, hstate] at hstays
      have hempty : (z.holders.filter (fun h => h.brk != brk)).isEmpty = true := List.isEmpty_iff.mpr hleft
      simp only [RingEntry.release, hheld, hleft, hstate, hempty, Bool.not_true, Bool.false_eq_true, Bool.true_eq_false, if_false, if_true,
        ne_eq, not_true_eq_false]
    · have hsome : (z.holders.filter (fun h => h.brk != brk)).isEmpty = false := by
        simpa [RingEntry.left, List.isEmpty_eq_false_iff] using hleft
      simp only [RingEntry.release, hheld, hleft, hsome, Bool.not_true, Bool.false_eq_true, Bool.true_eq_false, if_false, if_true, ne_eq,
        not_false_eq_true]
      rfl
  · have hfree : z.heldBy brk = false := by simpa using hheld
    have hsame : d.lists.pool.set e (some z) = d.lists.pool := by
      rw [← hz]
      simp
    simp only [RingEntry.release, hfree, Bool.not_false, if_true, setEntry, hsame]
    rfl

end Entry

theorem releaseEntry_free {brk : Nat} {e : EntryNo} {d : Device} (hz : d.lists.pool[e] = none) : releaseEntry brk e d = d := by
  simp only [releaseEntry, hz]

/-- The pool once an entry's hold is released. -/
theorem pool_releaseEntry (brk : Nat) (e : EntryNo) (d : Device) :
    (releaseEntry brk e d).lists.pool = d.lists.pool.set e (d.lists.pool[e].bind (·.release brk)) := by
  cases hz : d.lists.pool[e] with
  | none =>
    rw [releaseEntry_free hz, Option.bind_none, ← hz]
    simp
  | some z =>
    rw [Option.bind_some]
    cases hgoes : z.goes brk with
    | true =>
      rw [releaseEntry_goes hz hgoes, (lowerUse_within _ _).lists_eq (by decide), RingEntry.release_eq_none hgoes]
      rfl
    | false =>
      rw [releaseEntry_stays hz hgoes]
      rfl

/-- Whether the entry at a place of the pool is unlinked by the release. -/
def Device.unlinks (d : Device) (brk : Nat) (o : EntryNo) : Bool := (d.lists.pool[o]).any (·.goes brk)

theorem rings_releaseEntry {brk : Nat} {e : EntryNo} {l : ListNo} {d : Device} (hlist : ∀ z, d.lists.pool[e] = some z → z.list = l)
    (hnodup : (d.lists.rings[l]).Nodup) :
    (releaseEntry brk e d).lists.rings = d.lists.rings.set l ((d.lists.rings[l]).filter (fun o => !(o == e && d.unlinks brk e))) := by
  have hkeep : d.unlinks brk e = false →
      d.lists.rings = d.lists.rings.set l ((d.lists.rings[l]).filter (fun o => !(o == e && d.unlinks brk e))) := by
    intro h
    simp [h]
  cases hz : d.lists.pool[e] with
  | none =>
    rw [releaseEntry_free hz]
    exact hkeep (by simp [Device.unlinks, hz])
  | some z =>
    cases hgoes : z.goes brk with
    | true =>
      have hunlinks : d.unlinks brk e = true := by simp [Device.unlinks, hz, hgoes]
      rw [releaseEntry_goes hz hgoes, (lowerUse_within _ _).lists_eq (by decide), hlist z hz, hunlinks]
      refine congrArg (d.lists.rings.set l ·) ?_
      rw [hnodup.erase_eq_filter]
      refine List.filter_congr fun o _ => ?_
      rw [Bool.and_true]
      rfl
    | false =>
      rw [releaseEntry_stays hz hgoes]
      exact hkeep (by simp [Device.unlinks, hz, hgoes])

/-! ### Use counts of clips (R104) -/

/-- A record with its use count lowered by a number. -/
def ClipRecord.lowered (r : ClipRecord) (n : Nat) : ClipRecord := { r with use := r.use - n }

theorem clipRecord_of_cat {d d' : Device} (h : d'.cat = d.cat) (id : ClipId) : clipRecord id d' = clipRecord id d := by
  simp only [clipRecord, findClip, h]

/-- A change at another clip's place leaves a clip's record. -/
theorem clipRecord_setPlace_other {id : ClipId} {place : PlaceNo} {d : Device} {o : Option ClipRecord}
    (hbefore : (d.cat.places[place]).any (fun c => c.id == id) = false) (hafter : o.any (fun c => c.id == id) = false) :
    clipRecord id (setPlace place o d) = clipRecord id d := by
  have hfind : findClip id (setPlace place o d) = findClip id d := vfind_set (hafter.trans hbefore.symm)
  unfold clipRecord
  rw [hfind]
  cases hplace : findClip id d with
  | none => rfl
  | some i =>
    have hne : place ≠ i := by
      rintro rfl
      rw [findClip] at hplace
      exact Bool.false_ne_true (hbefore.symm.trans (vfind_some hplace).1)
    have hval : place.val ≠ i.val := fun h => hne (Fin.ext h)
    simp [setPlace, hval]

/-- A known clip's record is the one at its place. -/
theorem place_of_clipRecord {id : ClipId} {d : Device} {r : ClipRecord} (h : clipRecord id d = some r) :
    ∃ place, findClip id d = some place ∧ d.cat.places[place] = some r := by
  unfold clipRecord at h
  split at h
  · cases h
  · next i hfind => exact ⟨i, hfind, h⟩

theorem clipRecord_setPlace_self {id : ClipId} {d : Device} {place : PlaceNo} {r r' : ClipRecord} (hfind : findClip id d = some place)
    (hplace : d.cat.places[place] = some r) (hid : r'.id = r.id) : clipRecord id (setPlace place (some r') d) = some r' := by
  refine clipRecord_of_place (place := place) ?_ (by simp [setPlace])
  rw [findClip_set_place hplace hid rfl, hfind]

theorem clipRecord_lowerUse_self {id : ClipId} {d : Device} {r : ClipRecord} (hr : clipRecord id d = some r) (hstate : r.state ≠ .absent) :
    clipRecord id (lowerUse id d) = some (r.lowered 1) := by
  obtain ⟨place, hfind, hplace⟩ := place_of_clipRecord hr
  rw [lowerUse_of_place hfind hplace, if_neg (fun h => hstate h.1)]
  exact clipRecord_setPlace_self hfind hplace rfl

theorem clipRecord_lowerUse_other {id o : ClipId} (hne : o ≠ id) (d : Device) : clipRecord id (lowerUse o d) = clipRecord id d := by
  unfold lowerUse
  split
  · rfl
  · next i hfind =>
    have hids : ∀ c, d.cat.places[i] = some c → (c.id == id) = false := fun c hc => by
      rw [findClip_id hfind hc]
      simpa using hne
    cases hplace : d.cat.places[i] with
    | none => exact clipRecord_setPlace_other (by rw [hplace]; rfl) rfl
    | some c =>
      refine clipRecord_setPlace_other (by rw [hplace]; exact hids c hplace) ?_
      rw [Option.bind_some, ClipRecord.keep]
      split
      · rfl
      · exact hids c hplace

/-- Whether the release of the entry lowers the use count of the clip. -/
def Device.unlinksClip (d : Device) (brk : Nat) (clip : ClipId) (o : EntryNo) : Bool :=
  (d.lists.pool[o]).any (fun z => z.goes brk && z.clip == clip)

theorem clipRecord_releaseEntry {brk : Nat} {e : EntryNo} {clip : ClipId} {d : Device} {r : ClipRecord}
    (hr : clipRecord clip d = some r) (hstate : r.state ≠ .absent) :
    clipRecord clip (releaseEntry brk e d) = some (r.lowered (if d.unlinksClip brk clip e then 1 else 0)) := by
  cases hz : d.lists.pool[e] with
  | none =>
    have hnone : d.unlinksClip brk clip e = false := by simp [Device.unlinksClip, hz]
    rw [releaseEntry_free hz, hnone]
    exact hr
  | some z =>
    cases hgoes : z.goes brk with
    | false =>
      have hnone : d.unlinksClip brk clip e = false := by simp [Device.unlinksClip, hz, hgoes]
      rw [releaseEntry_stays hz hgoes, hnone]
      exact hr
    | true =>
      rw [releaseEntry_goes hz hgoes]
      have hrecord : clipRecord clip (d.withoutEntry e z.list) = some r := hr
      by_cases hclip : z.clip = clip
      · have hone : d.unlinksClip brk clip e = true := by simp [Device.unlinksClip, hz, hgoes, hclip]
        rw [hclip, hone]
        exact clipRecord_lowerUse_self hrecord hstate
      · have hnone : d.unlinksClip brk clip e = false := by simp [Device.unlinksClip, hz, hgoes, hclip]
        rw [clipRecord_lowerUse_other hclip, hnone]
        exact hrecord

/-! ### All of a break's holds on its list released -/

section Holds

variable {brk : Nat} {es : List EntryNo}

/-- The release of other entries' holds leaves an entry. -/
theorem pool_releaseEntry_other {e o : EntryNo} (hne : o ≠ e) (d : Device) :
    (releaseEntry brk e d).lists.pool[o] = d.lists.pool[o] := by
  have hval : e.val ≠ o.val := fun h => hne (Fin.ext h.symm)
  rw [pool_releaseEntry]
  simp [hval]

theorem pool_releaseEntry_self (e : EntryNo) (d : Device) :
    (releaseEntry brk e d).lists.pool[e] = d.lists.pool[e].bind (·.release brk) := by
  rw [pool_releaseEntry]
  simp

theorem pool_foldl_other {o : EntryNo} (ho : o ∉ es) (d : Device) :
    (es.foldl (fun d e => releaseEntry brk e d) d).lists.pool[o] = d.lists.pool[o] := by
  induction es generalizing d with
  | nil => rfl
  | cons e es ih =>
    obtain ⟨hne, hrest⟩ := not_or.mp (fun h => ho (List.mem_cons.mpr h))
    rw [List.foldl_cons, ih hrest, pool_releaseEntry_other hne]

theorem pool_foldl_mem {o : EntryNo} (hnodup : es.Nodup) (ho : o ∈ es) (d : Device) :
    (es.foldl (fun d e => releaseEntry brk e d) d).lists.pool[o] = d.lists.pool[o].bind (·.release brk) := by
  induction es generalizing d with
  | nil => cases ho
  | cons e es ih =>
    obtain ⟨hnot, hrest⟩ := List.nodup_cons.mp hnodup
    rw [List.foldl_cons]
    by_cases heq : o = e
    · subst heq
      rw [pool_foldl_other hnot, pool_releaseEntry_self]
    · rw [ih hrest ((List.mem_cons.mp ho).resolve_left heq), pool_releaseEntry_other heq]

/-- No entry of the released ones is held by the break. -/
theorem heldBy_foldl {o : EntryNo} {z : RingEntry} (ho : o ∈ es) (d : Device)
    (hz : (es.foldl (fun d e => releaseEntry brk e d) d).lists.pool[o] = some z) : z.heldBy brk = false := by
  have hkept : ∀ (es : List EntryNo) (d : Device), (∀ z, d.lists.pool[o] = some z → z.heldBy brk = false) →
      ∀ z, (es.foldl (fun d e => releaseEntry brk e d) d).lists.pool[o] = some z → z.heldBy brk = false := by
    intro es
    induction es with
    | nil => exact fun d h => h
    | cons e es ih =>
      intro d h
      rw [List.foldl_cons]
      refine ih _ fun z hz => ?_
      by_cases heq : o = e
      · subst heq
        rw [pool_releaseEntry_self] at hz
        obtain ⟨y, -, hy⟩ := Option.bind_eq_some_iff.mp hz
        exact RingEntry.heldBy_of_release hy
      · rw [pool_releaseEntry_other heq] at hz
        exact h z hz
  obtain ⟨before, after, rfl⟩ := List.append_of_mem ho
  rw [List.foldl_append, List.foldl_cons] at hz
  refine hkept after _ (fun y hy => ?_) z hz
  rw [pool_releaseEntry_self] at hy
  obtain ⟨w, -, hw⟩ := Option.bind_eq_some_iff.mp hy
  exact RingEntry.heldBy_of_release hw

theorem unlinks_congr {d d' : Device} {o : EntryNo} (h : d'.lists.pool[o] = d.lists.pool[o]) : d'.unlinks brk o = d.unlinks brk o := by
  rw [Device.unlinks, Device.unlinks, h]

theorem unlinksClip_congr {d d' : Device} {o : EntryNo} (h : d'.lists.pool[o] = d.lists.pool[o]) (clip : ClipId) :
    d'.unlinksClip brk clip o = d.unlinksClip brk clip o := by
  rw [Device.unlinksClip, Device.unlinksClip, h]

theorem rings_foldl {l : ListNo} (hnodup : es.Nodup) (d : Device) (hlist : ∀ o ∈ es, ∀ z, d.lists.pool[o] = some z → z.list = l)
    (hring : (d.lists.rings[l]).Nodup) :
    (es.foldl (fun d e => releaseEntry brk e d) d).lists.rings
      = d.lists.rings.set l ((d.lists.rings[l]).filter (fun o => !(es.contains o && d.unlinks brk o))) := by
  induction es generalizing d with
  | nil => simp
  | cons e es ih =>
    obtain ⟨hnot, hrest⟩ := List.nodup_cons.mp hnodup
    have hother : ∀ o ∈ es, (releaseEntry brk e d).lists.pool[o] = d.lists.pool[o] := fun o ho =>
      pool_releaseEntry_other (fun h : o = e => hnot (h ▸ ho)) d
    have hfirst := rings_releaseEntry (brk := brk) (fun z hz => hlist e List.mem_cons_self z hz) hring
    have hlAfter : (releaseEntry brk e d).lists.rings[l] = (d.lists.rings[l]).filter (fun o => !(o == e && d.unlinks brk e)) := by
      rw [hfirst]
      simp
    rw [List.foldl_cons, ih hrest _ (fun o ho z hz => hlist o (List.mem_cons_of_mem _ ho) z (hother o ho ▸ hz))
      (hlAfter ▸ hring.filter _), hlAfter, hfirst, List.filter_filter, Vector.set_set]
    refine congrArg (d.lists.rings.set l ·) (List.filter_congr fun o _ => ?_)
    by_cases heq : o = e
    · subst heq
      have hnotc : es.contains o = false := by simpa using hnot
      rw [List.contains_cons, hnotc]
      simp
    · have hbeq : (o == e) = false := by simpa using heq
      rw [List.contains_cons, hbeq, unlinks_congr (pool_releaseEntry_other heq d)]
      simp

theorem clipRecord_foldl {clip : ClipId} {r : ClipRecord} (hnodup : es.Nodup) (d : Device) (hr : clipRecord clip d = some r)
    (hstate : r.state ≠ .absent) :
    clipRecord clip (es.foldl (fun d e => releaseEntry brk e d) d)
      = some (r.lowered (es.filter (fun o => d.unlinksClip brk clip o)).length) := by
  induction es generalizing d r with
  | nil => exact hr
  | cons e es ih =>
    obtain ⟨hnot, hrest⟩ := List.nodup_cons.mp hnodup
    have hsame : es.filter (fun o => (releaseEntry brk e d).unlinksClip brk clip o) = es.filter (fun o => d.unlinksClip brk clip o) :=
      List.filter_congr fun o ho => unlinksClip_congr (pool_releaseEntry_other (fun h : o = e => hnot (h ▸ ho)) d) clip
    rw [List.foldl_cons, ih hrest _ (clipRecord_releaseEntry hr hstate) hstate, hsame, List.filter_cons]
    cases d.unlinksClip brk clip e with
    | true => simp [ClipRecord.lowered, Nat.sub_sub, Nat.add_comm]
    | false => simp [ClipRecord.lowered]

end Holds

/-! ### The list turned (R130) -/

theorem ringFrom_perm (e : EntryNo) (ring : List EntryNo) : (ringFrom e ring).Perm ring := by
  refine List.perm_append_comm.trans ?_
  rw [List.takeWhile_append_dropWhile]

theorem ringAfter_perm (e : EntryNo) (ring : List EntryNo) : (ringAfter e ring).Perm ring := by
  refine List.Perm.trans ?_ (ringFrom_perm e ring)
  unfold ringAfter
  split
  · next h => rw [h]
  · next o rest h =>
    rw [h]
    exact List.perm_append_comm

theorem ringFrom_split {e : EntryNo} {pre post : List EntryNo} (h : e ∉ pre) : ringFrom e (pre ++ e :: post) = e :: post ++ pre := by
  have hall : ∀ o ∈ pre, (o != e) = true := fun o ho => by
    simp only [bne_iff_ne, ne_eq]
    rintro rfl
    exact h ho
  simp [ringFrom, List.dropWhile_append_of_pos hall, List.takeWhile_append_of_pos hall]

/-- A ring turned to the break's last started entry, which ends it where it was played to its end. -/
def turnedRing (toEnd : Bool) (e : EntryNo) (ring : List EntryNo) : List EntryNo := if toEnd then ringAfter e ring else ringFrom e ring

theorem turnedRing_perm (toEnd : Bool) (e : EntryNo) (ring : List EntryNo) : (turnedRing toEnd e ring).Perm ring := by
  unfold turnedRing
  split
  · exact ringAfter_perm e ring
  · exact ringFrom_perm e ring

section Turn

variable {b : Break} {l : ListNo} {e : EntryNo} {d : Device} (hl : b.list = some l) (he : b.current = some e)

include hl he

theorem turnList_eq : d.turnList b = (turnedRing (b.source != .list) e (d.lists.rings[l])).foldl (fun d e => releaseEntry b.id e d)
      (setRing l (turnedRing (b.source != .list) e (d.lists.rings[l])) d) := by
  have hring : (rotateList l e (b.source != .list) d).lists.rings[l] = turnedRing (b.source != .list) e (d.lists.rings[l]) := by
    simp [rotateList, setRing, turnedRing]
  simp only [Device.turnList, hl, he, releaseHolds, hring]
  rfl

theorem heldBy_turnList {o : EntryNo} {z : RingEntry} (ho : o ∈ d.lists.rings[l]) (hz : (d.turnList b).lists.pool[o] = some z) :
    z.heldBy b.id = false := by
  rw [turnList_eq hl he] at hz
  exact heldBy_foldl ((turnedRing_perm _ e _).mem_iff.mpr ho) _ hz

theorem pool_turnList_mem {o : EntryNo} (hnodup : (d.lists.rings[l]).Nodup) (ho : o ∈ d.lists.rings[l]) :
    (d.turnList b).lists.pool[o] = d.lists.pool[o].bind (·.release b.id) := by
  rw [turnList_eq hl he]
  exact pool_foldl_mem ((turnedRing_perm _ e _).nodup_iff.mpr hnodup) ((turnedRing_perm _ e _).mem_iff.mpr ho) _

theorem pool_turnList_other {o : EntryNo} (ho : o ∉ d.lists.rings[l]) : (d.turnList b).lists.pool[o] = d.lists.pool[o] := by
  rw [turnList_eq hl he]
  exact pool_foldl_other (fun h => ho ((turnedRing_perm _ e _).mem_iff.mp h)) _

theorem rings_turnList (hnodup : (d.lists.rings[l]).Nodup) (hlist : ∀ o ∈ d.lists.rings[l], ∀ z, d.lists.pool[o] = some z → z.list = l) :
    (d.turnList b).lists.rings = d.lists.rings.set l
      ((turnedRing (b.source != .list) e (d.lists.rings[l])).filter (fun o => !(d.unlinks b.id o))) := by
  have hperm := turnedRing_perm (b.source != .list) e (d.lists.rings[l])
  have hturned := hperm.nodup_iff.mpr hnodup
  rw [turnList_eq hl he]
  have hself : (setRing l (turnedRing (b.source != .list) e (d.lists.rings[l])) d).lists.rings[l]
      = turnedRing (b.source != .list) e (d.lists.rings[l]) := by simp [setRing]
  rw [rings_foldl (l := l) hturned (setRing l (turnedRing (b.source != .list) e (d.lists.rings[l])) d)
    (fun o ho z hz => hlist o (hperm.mem_iff.mp ho) z hz) (by rw [hself]; exact hturned), hself]
  refine (Vector.set_set ..).trans (congrArg (d.lists.rings.set l ·) (List.filter_congr fun o ho => ?_))
  rw [List.contains_iff_mem.mpr ho, Bool.true_and]
  rfl

theorem clipRecord_turnList {clip : ClipId} {r : ClipRecord} (hnodup : (d.lists.rings[l]).Nodup) (hr : clipRecord clip d = some r)
    (hstate : r.state ≠ .absent) :
    clipRecord clip (d.turnList b) = some (r.lowered
      ((turnedRing (b.source != .list) e (d.lists.rings[l])).filter (fun o => d.unlinksClip b.id clip o)).length) := by
  rw [turnList_eq hl he]
  exact clipRecord_foldl ((turnedRing_perm _ e _).nodup_iff.mpr hnodup) _ hr hstate

end Turn

end Sys2Proof.Machine
end

section

/-! PROOFS. The frames a break marks, the break a head cue starts, and a draft appended. Settled: O60. -/

namespace Sys2Proof.Machine

/-! ### A draft appended (R160) -/

theorem asrun_onDraft {n : DraftNo} {t : Draft} {d : Device} (ht : d.asrun.drafts[n] = some t) (f : Draft → Draft) :
    (onDraft (some n) f d).asrun = { d.asrun with drafts := d.asrun.drafts.set n (some (f t)) } := by
  simp only [onDraft, vmodify, ht]
  rfl

/-- The as-run unit once a draft is appended to a queue with room. -/
def AsRun.appended (a : AsRun) (n : DraftNo) (t : Draft) : AsRun :=
  { a with drafts := a.drafts.set n none, queue := a.queue ++ [{ t.toRecord with number := a.next }], next := a.next + 1 }

section Append

variable {n : DraftNo} {t : Draft} {d e : Device} (he : e.asrun = { d.asrun with drafts := d.asrun.drafts.set n (some t) }) (x : Site)

include he

theorem drafts_of_asrun : e.asrun.drafts[n] = some t := by simp [he]

/-- A draft whose break is open, or whose frames have not all had their fate, waits. -/
theorem asrun_appendDraft_waits (hwaits : t.closed = false ∨ 0 < t.outstanding) : (appendDraft x (some n) e).asrun = e.asrun := by
  have hnot : (t.closed && t.outstanding == 0) = false := by
    rcases hwaits with h | h
    · simp [h]
    · simp [Nat.ne_of_gt h]
  simp only [appendDraft, drafts_of_asrun he, hnot, Bool.false_eq_true, if_false]

theorem asrun_appendDraft_done (hclosed : t.closed = true) (hnone : t.outstanding = 0) (hroom : d.asrun.queue.length < 64) :
    (appendDraft x (some n) e).asrun = d.asrun.appended n t := by
  have hdone : (t.closed && t.outstanding == 0) = true := by simp [hclosed, hnone]
  have hroom' : (e.setAsRun { e.asrun with drafts := e.asrun.drafts.set n none }).asrun.queue.length < 64 := by
    rw [Device.setAsRun_asrun, he]
    exact hroom
  simp only [appendDraft, drafts_of_asrun he, hdone, if_true]
  rw [pushRecord_of_room hroom', refresh_asrun, Device.setAsRun_asrun, Device.setAsRun_asrun, he]
  simp [AsRun.appended]

end Append

/-- The outcome of a draft (R160). -/
theorem outcome_aborted {t : Draft} (h : (t.cause = .timeLost ∨ t.cause = .siteRestart) ∧ t.first = none) : t.outcome = .aborted := by
  obtain ⟨hcause, hfirst⟩ := h
  have hlost : (t.cause == .timeLost || t.cause == .siteRestart) = true := by simpa using hcause
  simp [Draft.outcome, hlost, hfirst]

theorem outcome_not_aborted {t : Draft} (h : ¬ ((t.cause = .timeLost ∨ t.cause = .siteRestart) ∧ t.first = none)) :
    t.outcome = if t.blank then .blanked
      else if t.lost = 0 ∧ t.lateFill = false ∧ t.cause ≠ .programmeReset ∧ t.cause ≠ .timeLost ∧ t.cause ≠ .siteRestart
        then .played else .playedShort := by
  have hnot : ((t.cause == .timeLost || t.cause == .siteRestart) && t.first.isNone) = false := by
    rw [← Bool.not_eq_true]
    simpa using h
  simp only [Draft.outcome, hnot, Bool.false_eq_true, if_false]
  congr 2
  simp [and_assoc]

/-! ### A frame marked for a break (R144, R158) -/

/-- A break with one more frame marked, with or without a position to replace. -/
def Break.mark (b : Break) (k : FrameNo) (rep : Bool) : Break :=
  { b with
    lastMarked := some k
    marked := if b.marked.contains k then b.marked else b.marked ++ [k]
    outstanding := b.outstanding + 1
    work := if rep then b.work + 1 else b.work }

/-- Whether the frame has a position of the programme to replace. -/
def Record.hasShare (r : Record) (p : ProgNo) : Bool := r.headers.any (fun h => h.qual == .payload && h.owner.any (fun o => o.1 == p))

theorem replacedPositions_isEmpty (p : ProgNo) (r : Record) : (!(replacedPositions p r).isEmpty) = r.hasShare p := by
  unfold replacedPositions Record.hasShare
  induction r.headers with
  | nil => rfl
  | cons h hs ih =>
    rw [List.filter_cons, List.any_cons]
    split
    · next hmet => simp only [List.map_cons, List.isEmpty_cons, Bool.not_false, hmet, Bool.true_or]
    · next hnot => simp only [ih, Bool.not_eq_true _ ▸ hnot, Bool.false_or]

section Mark

variable {p : ProgNo} {b : Break} {d : Device} (hactive : (d.splice.progs[p]).active = some b)
  (hended : (d.splice.progs[p]).ended = []) (hclosed : (d.splice.progs[p]).closed = []) (slot : SlotNo) (k : FrameNo)

include hactive

theorem markFrame_eq : markFrame p slot k d = onDraft b.draft (fun t => { t with outstanding := t.outstanding + 1 })
      ((updBreak p b.id (fun a => a.mark k ((d.slots[slot]).hasShare p)) d).updSlot slot
        (fun r => { r with marks := r.marks ++ [⟨p, b.id, (d.slots[slot]).hasShare p⟩] })) := by
  simp only [markFrame, hactive, replacedPositions_isEmpty]
  rfl

theorem asrun_markFrame {n : DraftNo} {t : Draft} (hdraft : b.draft = some n) (ht : d.asrun.drafts[n] = some t) :
    (markFrame p slot k d).asrun = { d.asrun with drafts := d.asrun.drafts.set n (some { t with outstanding := t.outstanding + 1 }) } := by
  rw [markFrame_eq hactive, hdraft]
  exact asrun_onDraft ht _

theorem slots_markFrame : (markFrame p slot k d).slots = d.slots.set slot
      { d.slots[slot] with marks := (d.slots[slot]).marks ++ [⟨p, b.id, (d.slots[slot]).hasShare p⟩] } := by
  rw [markFrame_eq hactive, (onDraft_within _ _ _).slots_eq (by decide)]
  rfl

theorem markFrame_within : d.Within [.splice, .slots, .asrun] (markFrame p slot k d) := by
  rw [markFrame_eq hactive]
  exact ((updBreak_within d _ _ _).mono (by decide)).trans
    (((updSlot_within _ _ _).mono (by decide)).trans ((onDraft_within _ _ _).mono (by decide)))

theorem queue_markFrame : ((markFrame p slot k d).splice.progs[p]).queue = (d.splice.progs[p]).queue := by
  rw [markFrame_eq hactive, (onDraft_within _ _ _).splice_eq (by decide)]
  have hprog : (updBreak p b.id (fun a => a.mark k ((d.slots[slot]).hasShare p)) d).splice.progs[p]
      = (d.splice.progs[p]).mapBreaks (fun a => if a.id == b.id then a.mark k ((d.slots[slot]).hasShare p) else a) := vmodify_get_self ..
  have hqueue := congrArg Programme.queue hprog
  exact hqueue

include hended hclosed

theorem prog_markFrame : (markFrame p slot k d).splice.progs[p]
      = { d.splice.progs[p] with active := some (b.mark k ((d.slots[slot]).hasShare p)) } := by
  rw [markFrame_eq hactive, (onDraft_within _ _ _).splice_eq (by decide), updBreak_of_active hactive hended hclosed]
  simp [Device.updSlot]

end Mark

/-- The end of a range leaves no active break, and the queue as it is. -/
theorem active_endRange (x : Site) (p : ProgNo) (d : Device) :
    ((endRange x p d).splice.progs[p]).active = none ∧ ((endRange x p d).splice.progs[p]).queue = (d.splice.progs[p]).queue := by
  unfold endRange
  split
  · next h => exact ⟨h, rfl⟩
  · next b _ =>
    have hprog : (d.updProg p (fun q => { q with active := none, ended := q.ended ++ [b] })).splice.progs[p]
        = { d.splice.progs[p] with active := none, ended := (d.splice.progs[p]).ended ++ [b] } := vmodify_get_self ..
    unfold closeIfDone
    split
    · rw [hprog]
      exact ⟨rfl, rfl⟩
    · split
      · rw [prog_closeBreak, hprog]
        exact ⟨rfl, rfl⟩
      · rw [hprog]
        exact ⟨rfl, rfl⟩

section ActiveTurn

variable {x : Site} {p : ProgNo} {b : Break} {k : FrameNo} {d : Device} (hactive : (d.splice.progs[p]).active = some b)
  (hrange : inRange k b.out b.endF = true) (slot : SlotNo)

include hactive hrange

theorem testActive_marks (hlast : k ≠ b.endF - 1) : testActive x p slot k d = markFrame p slot k d := by
  simp only [testActive, hactive, hrange, if_true, hlast, if_false]

theorem testActive_ends (hlast : k = b.endF - 1) : testActive x p slot k d = endRange x p (markFrame p slot k d) := by
  simp only [testActive, hactive, hrange, if_true]
  exact if_pos hlast

end ActiveTurn

/-- With nothing queued, a programme's turn is the test of its active break. -/
theorem programmeTurn_of_empty {x : Site} {p : ProgNo} {slot : SlotNo} {k : FrameNo} {d : Device} (henabled : (x.progs[p]).enabled = true)
    (hqueue : (d.splice.progs[p]).queue = []) (hafter : ((testActive x p slot k d).splice.progs[p]).queue = []) :
    programmeTurn x slot k d p = testActive x p slot k d := by
  simp only [programmeTurn, henabled, Bool.not_true, Bool.false_eq_true, if_false, hqueue, List.filter_nil, List.foldl_nil]
  exact testHeads_of_empty hafter x slot k _

/-! ### A break started by a head cue (R143, R157) -/

/-- A frame in the range of a cue is not before the cue's out frame. -/
theorem not_isAfter_of_inRange {c : Cue} {k : FrameNo} (hlong : c.length ≤ 65535) (hrange : inRange k c.out c.endF = true) :
    isAfter c.out k = false := by
  have hlen : (c.endF - c.out).toNat = c.length := by
    have : c.endF - c.out = BitVec.ofNat 24 c.length := by
      rw [Cue.endF]
      bv_omega
    rw [this, BitVec.toNat_ofNat]
    omega
  have hnear : (k - c.out).toNat < c.length := by
    rw [← hlen]
    simpa [inRange] using hrange
  rw [← Bool.not_eq_true]
  simp only [isAfter, Bool.and_eq_true, decide_eq_true_eq, not_and, Nat.not_le]
  bv_omega

/-- The draft a starting break opens. -/
def Cue.openedDraft (c : Cue) (p : ProgNo) (blank : Bool) : Draft :=
  { prog := p, cue := c.id, slotCode := c.slotCode, confirm := c.confirm, blank := blank, cause := c.cause
    first := none, last := none, emitted := 0, lost := 0, outstanding := 0, standby := false, muted := false
    lateFill := false, filler := false, moreClips := false, closed := false, items := [] }

section Start

variable {p : ProgNo} {c : Cue} {n : DraftNo} {d : Device}

theorem removeCue_within (x : Site) (id : CueId) : d.Within [.splice, .ports] (removeCue x p id d) := setQueue_within x p _ d

/-- The device once a cue has become a break: the cue is out of its queue, a draft is open, and the break's number is used up. -/
def Device.opened (d : Device) (x : Site) (p : ProgNo) (c : Cue) (n : DraftNo) (blank : Bool) : Device :=
  { (removeCue x p c.id d).setAsRun { d.asrun with drafts := d.asrun.drafts.set n (some (c.openedDraft p blank)) } with
    splice := { (removeCue x p c.id d).splice with nextBreak := d.splice.nextBreak + 1 } }

theorem makeBreak_eq (hfree : vfind d.asrun.drafts Option.isNone = some n) (x : Site) :
    makeBreak x p c d = (newBreak d.splice.nextBreak c (some n), d.opened x p c n (newBreak d.splice.nextBreak c (some n)).blank) := by
  have hasrun : (removeCue x p c.id d).asrun = d.asrun := (removeCue_within x _).asrun_eq (by decide)
  have hnext : (removeCue x p c.id d).splice.nextBreak = d.splice.nextBreak := by
    rw [removeCue_eq, splice_refresh]
    rfl
  simp only [makeBreak, openDraft, hasrun, hfree, Device.setAsRun_splice, hnext]
  rfl

theorem opened_within (x : Site) (blank : Bool) : d.Within [.splice, .ports, .asrun] (d.opened x p c n blank) :=
  ((removeCue_within x _).mono (by decide)).trans
    (((setAsRun_within _ _).mono (by decide)).trans ((setSplice_within _ _).mono (by decide)))

theorem prog_opened {exp : List CueId} (hprog : d.splice.progs[p] = ⟨[c], none, [], [], exp⟩) (x : Site) (blank : Bool) :
    (d.opened x p c n blank).splice.progs[p] = ⟨[], none, [], [], exp⟩ := by
  have : (removeCue x p c.id d).splice.progs[p] = ⟨[], none, [], [], exp⟩ := by
    rw [removeCue, prog_setQueue, hprog]
    simp
  exact this

/-- A programme whose only break is the one a head cue has just started. -/
theorem programmeTurn_starts {x : Site} {slot : SlotNo} {k : FrameNo} {exp : List CueId} {b0 b : Break} {d2 d3 : Device}
    (henabled : (x.progs[p]).enabled = true) (hprog : d.splice.progs[p] = ⟨[c], none, [], [], exp⟩) (hquery : c.isQuery = false)
    (hlong : c.length ≤ 65535) (hrange : inRange k c.out c.endF = true) (hlast : k ≠ c.endF - 1)
    (hmake : makeBreak x p c d = (b0, d2)) (hsource : beginSource p b0 d2 = (b, d3)) (hout : b.out = c.out) (hend : b.endF = c.endF)
    (hd3 : d3.splice.progs[p] = ⟨[], none, [], [], exp⟩) :
    programmeTurn x slot k d p = markFrame p slot k (d3.updProg p (fun g => { g with active := some b })) := by
  have hafter : (d3.updProg p (fun g => { g with active := some b })).splice.progs[p] = ⟨[], some b, [], [], exp⟩ := by
    refine (vmodify_get_self ..).trans ?_
    rw [hd3]
  have hactive := congrArg Programme.active hafter
  have hmarks := testActive_marks (x := x) hactive (by rw [hout, hend]; exact hrange) slot (by rw [hend]; exact hlast)
  have hstart : startBreak x p slot k c d = markFrame p slot k (d3.updProg p (fun g => { g with active := some b })) := by
    simp only [startBreak, hmake, hsource]
    exact hmarks
  have hnone : (d.splice.progs[p]).active = none := by rw [hprog]
  have hqueue : (d.splice.progs[p]).queue = [c] := by rw [hprog]
  have hdone : ((markFrame p slot k (d3.updProg p (fun g => { g with active := some b }))).splice.progs[p]).queue = [] := by
    rw [queue_markFrame hactive, hafter]
  have hhead : testHeads x p slot k 3 d = markFrame p slot k (d3.updProg p (fun g => { g with active := some b })) := by
    rw [testHeads]
    simp only [hnone, hqueue, not_isAfter_of_inRange hlong hrange, hrange, hquery, Bool.not_true, Bool.false_and, Bool.or_self,
      Bool.false_eq_true, if_false, if_true, hstart]
    exact testHeads_of_empty hdone x slot k 2
  simp only [programmeTurn, henabled, Bool.not_true, Bool.false_eq_true, if_false, hqueue, List.filter_cons, hquery, Bool.false_and,
    List.filter_nil, List.foldl_nil, testActive_of_none hnone]
  exact hhead

end Start

/-! ### What a closed break leaves in the books (R105, R131, R159) -/

section Close

variable {p : ProgNo} {b : Break} {d : Device} (x : Site)

theorem clipRecord_updClip_self {id : ClipId} {r : ClipRecord} {f : ClipRecord → ClipRecord} (hr : clipRecord id d = some r)
    (hid : (f r).id = r.id) : clipRecord id (updClip id f d) = some (f r) := by
  obtain ⟨place, hfind, hplace⟩ := place_of_clipRecord hr
  rw [updClip_of_place hfind hplace]
  exact clipRecord_setPlace_self hfind hplace hid

theorem clipRecord_updClip_other {id o : ClipId} {f : ClipRecord → ClipRecord} (hne : o ≠ id) (hid : ∀ r, (f r).id = r.id) (d : Device) :
    clipRecord id (updClip o f d) = clipRecord id d := by
  unfold updClip
  split
  · rfl
  · next i hfind =>
    cases hplace : d.cat.places[i] with
    | none => exact clipRecord_setPlace_other (by rw [hplace]; rfl) rfl
    | some c =>
      have hother : (c.id == id) = false := by
        rw [findClip_id hfind hplace]
        simpa using hne
      refine clipRecord_setPlace_other (by rw [hplace]; exact hother) ?_
      simp only [Option.map_some, Option.any_some, hid, hother]

/-- The clip a break plays is played once less; every other clip is as it was. -/
theorem clipRecord_stopClip {id : ClipId} {r : ClipRecord} (hr : clipRecord id d = some r) :
    clipRecord id (d.stopClip b) = some { r with play := if b.playing = some id then r.play - 1 else r.play } := by
  cases hplaying : b.playing with
  | none =>
    rw [if_neg (by simp)]
    simpa only [Device.stopClip, hplaying] using hr
  | some o =>
    have hstop : d.stopClip b = lowerPlay o d := by simp only [Device.stopClip, hplaying]
    rw [hstop]
    by_cases heq : o = id
    · subst heq
      rw [if_pos rfl]
      exact clipRecord_updClip_self hr rfl
    · rw [if_neg (fun h => heq (Option.some.inj h))]
      exact (clipRecord_updClip_other (f := fun r => { r with play := r.play - 1 }) heq (fun _ => rfl) d).trans hr

theorem lists_closeBreak : (closeBreak x p b d).lists = (d.turnList b).lists := by
  rw [closeBreak_eq, (appendDraft_within x _ _).lists_eq (by decide), (updProg_within _ _ _).lists_eq (by decide),
    (onDraft_within _ _ _).lists_eq (by decide), (stopClip_within _ _).lists_eq (by decide)]

theorem clipRecord_closeBreak (id : ClipId) : clipRecord id (closeBreak x p b d) = clipRecord id ((d.turnList b).stopClip b) := by
  refine clipRecord_of_cat ?_ id
  rw [closeBreak_eq, (appendDraft_within x _ _).cat_eq (by decide), (updProg_within _ _ _).cat_eq (by decide),
    (onDraft_within _ _ _).cat_eq (by decide)]

/-- The device before a closing break's draft is appended has the draft closed, and nothing else of the as-run unit changed. -/
theorem asrun_before_append {n : DraftNo} {t : Draft} (ht : d.asrun.drafts[n] = some t) :
    ((onDraft (some n) (closeDraft b) ((d.turnList b).stopClip b)).updProg p (removeBreak b)).asrun
      = { d.asrun with drafts := d.asrun.drafts.set n (some (closeDraft b t)) } := by
  have hasrun : ((d.turnList b).stopClip b).asrun = d.asrun := by
    rw [(stopClip_within _ _).asrun_eq (by decide), (turnList_within _ _).asrun_eq (by decide)]
  rw [(updProg_within _ _ _).asrun_eq (by decide), asrun_onDraft (by rw [hasrun]; exact ht), hasrun]

end Close

/-- The queue with the draft's record at its end: its fields those of the draft, its outcome that of R160. -/
theorem appended_record {d d1 : Device} {n : DraftNo} {y : Draft} (h : d1.asrun = d.asrun.appended n y) :
    ∃ rec_, d1.asrun = { d.asrun with drafts := d.asrun.drafts.set n none, queue := d.asrun.queue ++ [rec_], next := d.asrun.next + 1 }
      ∧ rec_ = { y.toRecord with number := d.asrun.next, outcome := rec_.outcome }
      ∧ ((y.cause = .timeLost ∨ y.cause = .siteRestart) ∧ y.first = none → rec_.outcome = .aborted)
      ∧ (¬ ((y.cause = .timeLost ∨ y.cause = .siteRestart) ∧ y.first = none) →
        (y.blank = true → rec_.outcome = .blanked)
        ∧ (y.blank = false →
          rec_.outcome = if y.lost = 0 ∧ y.lateFill = false ∧ y.cause ≠ .programmeReset ∧ y.cause ≠ .timeLost ∧ y.cause ≠ .siteRestart
            then .played else .playedShort)) := by
  refine ⟨{ y.toRecord with number := d.asrun.next }, h, rfl, outcome_aborted, fun hnot => ⟨fun hblank => ?_, fun hblank => ?_⟩⟩
  · exact (outcome_not_aborted hnot).trans (if_pos hblank)
  · exact (outcome_not_aborted hnot).trans (if_neg (by simp [hblank]))

/-! ### One frame's fate counted (R158) -/

theorem markFate_asrun {x : Site} {f : Fate} {m : Mark} {b : Break} {n : DraftNo} {t : Draft} {d : Device}
    (hbreak : getBreak m.prog m.brk d = some b) (hdraft : b.draft = some n) (ht : d.asrun.drafts[n] = some t) :
    ∃ e, markFate x f d m = appendDraft x (some n) e
      ∧ e.asrun = { d.asrun with drafts := d.asrun.drafts.set n (some (f.onDraft t)) } := by
  simp only [markFate, hbreak, hdraft]
  refine ⟨_, rfl, ?_⟩
  rw [(updProg_within _ _ _).asrun_eq (by decide)]
  exact asrun_onDraft ht _

section Started

variable {x : Site} {p : ProgNo} {slot : SlotNo} {k : FrameNo} {c : Cue} {n : DraftNo} {exp : List CueId} {b : Break} {d d3 : Device}
  (hprog : d3.splice.progs[p] = ⟨[], none, [], [], exp⟩) (hasrun : d3.asrun =
    { d.asrun with drafts := d.asrun.drafts.set n (some (c.openedDraft p b.blank)) })

/-- The device with a break made the active one of its programme. -/
def Device.activate (d : Device) (p : ProgNo) (b : Break) : Device := d.updProg p (fun g => { g with active := some b })

include hprog

theorem prog_activate : (d3.activate p b).splice.progs[p] = ⟨[], some b, [], [], exp⟩ := by
  refine (vmodify_get_self ..).trans ?_
  rw [hprog]

theorem prog_first_mark : (markFrame p slot k (d3.activate p b)).splice.progs[p]
    = ⟨[], some (b.mark k ((d3.slots[slot]).hasShare p)), [], [], exp⟩ := by
  have h := prog_activate (b := b) hprog
  rw [prog_markFrame (congrArg Programme.active h) (congrArg Programme.ended h) (congrArg Programme.closed h), h]
  rfl

include hasrun

/-- The first frame a break marks is the one its draft waits for. -/
theorem asrun_first_mark (hdraft : b.draft = some n) : (markFrame p slot k (d3.activate p b)).asrun
    = { d.asrun with drafts := d.asrun.drafts.set n (some { c.openedDraft p b.blank with outstanding := 1 }) } := by
  have hactive := congrArg Programme.active (prog_activate (b := b) hprog)
  have hsame : (d3.activate p b).asrun = d3.asrun := (updProg_within d3 p _).asrun_eq (by decide)
  rw [asrun_markFrame hactive slot k hdraft (t := c.openedDraft p b.blank) (by rw [hsame, hasrun]; simp), hsame, hasrun]
  simp [Cue.openedDraft]

end Started

/-- Settles O60: the frame marked, the breaks a head cue starts, the close of a break and the fate of a frame. -/
theorem admittedFrameIsMarked : Obligations.AdmittedFrameIsMarked := by
  refine ⟨fun x slot k d p b henabled hqueue hactive hrange => ?active,
    fun x slot k d p c n henabled hprog hdecision hshort hlong hrange hlast hfree => ?blank,
    fun x slot k d p c n l f o rest z place r henabled hprog hdecision hshort hlong hrange hlast hfree hring hz hstate hheld hfind
      hplace hready => ?list,
    fun x d d1 y n => ?close⟩
  case active =>
    intro has
    refine ⟨fun hlast hended hclosed => ?_, fun hlast => ?_⟩
    · have hturn : programmeTurn x slot k d p = markFrame p slot k d := by
        have hmarks := testActive_marks (x := x) hactive hrange slot hlast
        rw [← hmarks]
        exact programmeTurn_of_empty henabled hqueue (by rw [hmarks, queue_markFrame hactive, hqueue])
      rw [hturn]
      refine ⟨?_, slots_markFrame hactive slot k, (markFrame_within hactive slot k).mem_eq (by decide),
        (markFrame_within hactive slot k).em_eq (by decide)⟩
      rw [prog_markFrame hactive hended hclosed]
      rfl
    · have hends := testActive_ends (x := x) hactive hrange slot hlast
      have hturn : programmeTurn x slot k d p = endRange x p (markFrame p slot k d) := by
        rw [← hends]
        refine programmeTurn_of_empty henabled hqueue ?_
        rw [hends, (active_endRange x p _).2, queue_markFrame hactive, hqueue]
      rw [hturn]
      exact (active_endRange x p _).1
  case blank =>
    intro t
    have hquery : c.isQuery = false := by
      rcases hdecision with h | h
      · rw [Cue.isQuery, h]
        rfl
      · rw [Cue.isQuery, h]
        rfl
    obtain ⟨b0, hb0⟩ : ∃ b0, b0 = newBreak d.splice.nextBreak c (some n) := ⟨_, rfl⟩
    obtain ⟨d2, hd2⟩ : ∃ d2, d2 = d.opened x p c n b0.blank := ⟨_, rfl⟩
    have hmake : makeBreak x p c d = (b0, d2) := by rw [makeBreak_eq hfree, ← hb0, ← hd2]
    have hsource : beginSource p b0 d2 = (b0, d2) := by
      subst hb0
      rcases hdecision with h | h
      · simp only [beginSource, newBreak, h, if_true]
      · simp only [beginSource, newBreak, h, Bool.false_eq_true, if_false, toFiller]
    have hprog2 : d2.splice.progs[p] = ⟨[], none, [], [], (d.splice.progs[p]).expired⟩ := by rw [hd2, prog_opened hprog]
    have hasrun2 : d2.asrun = { d.asrun with drafts := d.asrun.drafts.set n (some (c.openedDraft p b0.blank)) } := by
      rw [hd2]
      rfl
    have hslots2 : d2.slots = d.slots := by rw [hd2, (opened_within x _).slots_eq (by decide)]
    have ht : t = markFrame p slot k (d2.activate p b0) :=
      programmeTurn_starts henabled hprog hquery hlong hrange hlast hmake hsource (by rw [hb0]; rfl) (by rw [hb0]; rfl) hprog2
    have hdraft : b0.draft = some n := by rw [hb0]; rfl
    refine ⟨b0.mark k ((d.slots[slot]).hasShare p), ?_, by rw [hb0]; rfl, by rw [hb0]; rfl, by rw [hb0]; rfl, by rw [hb0]; rfl,
      by rw [hb0]; rfl, by rw [hb0]; rfl, ?_, by rw [hb0]; rfl, by rw [hb0]; rfl, by rw [hb0]; rfl, by rw [hb0]; rfl, hdraft, rfl,
      by rw [hb0]; rfl, ?_, ?_⟩
    · rw [ht, prog_first_mark hprog2, hslots2]
    · change b0.blank = true ↔ _
      rw [hb0]
      rcases hdecision with h | h <;> simp [newBreak, h]
    · have hwork : decide (0 < (b0.mark k ((d.slots[slot]).hasShare p)).work) = (d.slots[slot]).hasShare p := by
        rw [hb0]
        cases (d.slots[slot]).hasShare p <;> rfl
      have hslots : (d2.activate p b0).slots = d.slots := hslots2
      rw [ht, slots_markFrame (congrArg Programme.active (prog_activate hprog2)), hslots, hwork]
      refine (congrArg Record.marks (Vector.getElem_set_self ..)).trans ?_
      rfl
    · rw [ht, asrun_first_mark hprog2 hasrun2 hdraft]
      rfl
  case list =>
    intro t
    have hquery : c.isQuery = false := by
      simp only [Cue.isQuery, hdecision]
      rfl
    obtain ⟨b0, hb0⟩ : ∃ b0, b0 = newBreak d.splice.nextBreak c (some n) := ⟨_, rfl⟩
    obtain ⟨d2, hd2⟩ : ∃ d2, d2 = d.opened x p c n b0.blank := ⟨_, rfl⟩
    have hwithin : d.Within [.splice, .ports, .asrun] d2 := by
      rw [hd2]
      exact opened_within x _
    have hlists2 : d2.lists = d.lists := hwithin.lists_eq (by decide)
    have hcat2 : d2.cat = d.cat := hwithin.cat_eq (by decide)
    have hmake : makeBreak x p c d = (b0, d2) := by rw [makeBreak_eq hfree, ← hb0, ← hd2]
    have hblank : b0.blank = false := by simp only [hb0, newBreak, hdecision]
    have hlist : b0.list = some l := by simp only [hb0, newBreak, hdecision]
    have hfiller : b0.filler = f := by simp only [hb0, newBreak, hdecision]
    have hid : b0.id = d.splice.nextBreak := by rw [hb0]; rfl
    obtain ⟨b, hb⟩ : ∃ b, b = { b0.take o z with source := .list, playing := some z.clip, clipPos := 0 } := ⟨_, rfl⟩
    obtain ⟨d3, hd3⟩ : ∃ d3,
        d3 = setPlace place (some { r with play := r.play + 1 }) (setEntry o (some (z.start ⟨p, b0.id⟩)) d2) := ⟨_, rfl⟩
    have hsource : beginSource p b0 d2 = (b, d3) := by
      have hstart := startEntries_ready (p := p) (o := o) (rest := rest) (b := b0) (d := d2) (by rw [hlists2]; exact hz)
        (by rw [hid]; exact hheld) hstate ((findClip_congr (congrArg Catalogue.places hcat2)).trans hfind) (by rw [hcat2]; exact hplace)
        hready
      simp only [beginSource, hblank, hlist, Bool.false_eq_true, if_false]
      rw [hlists2, hring, hstart, hb, hd3]
    have hprog3 : d3.splice.progs[p] = ⟨[], none, [], [], (d.splice.progs[p]).expired⟩ := by
      rw [hd3, ← prog_opened hprog x b0.blank, ← hd2]
      rfl
    have ht : t = markFrame p slot k (d3.activate p b) :=
      programmeTurn_starts henabled hprog hquery hlong hrange hlast hmake hsource (by rw [hb, hb0]; rfl) (by rw [hb, hb0]; rfl) hprog3
    have hmark := markFrame_within (congrArg Programme.active (prog_activate (b := b) hprog3)) slot k
    refine ⟨b.mark k ((d3.slots[slot]).hasShare p), ?_, by rw [← hid, hb]; rfl, by rw [← hblank, hb]; rfl, by rw [← hlist, hb]; rfl,
      by rw [← hfiller, hb]; rfl, by rw [hb, hb0]; rfl, by rw [hb]; rfl, by rw [hb, hb0]; rfl, by rw [hb]; rfl, by rw [hb]; rfl,
      by rw [hb]; rfl, by rw [hb, hb0]; rfl, rfl, by rw [hb, hb0]; rfl, ?_, ?_⟩
    · rw [ht, prog_first_mark hprog3]
    · rw [ht, hmark.lists_eq (by decide), ← hlists2, hb, hd3]
      rfl
    · rw [ht, hmark.cat_eq (by decide), ← hcat2, hd3]
      rfl
  case close =>
    intro appended hroom
    refine ⟨fun p b y0 hd1 hdraft ht hy => ?_, fun f m b y0 hd1 hbreak hdraft ht hy => ?_⟩
    · have hy' : y = closeDraft b y0 := hy
      have hbefore := asrun_before_append (p := p) (b := b) ht
      rw [← hy'] at hbefore
      have hd : d1 = appendDraft x (some n) ((onDraft (some n) (closeDraft b) ((d.turnList b).stopClip b)).updProg p (removeBreak b)) := by
        rw [hd1, closeBreak_eq, hdraft]
      have hlists : d1.lists = (d.turnList b).lists := by rw [hd1, lists_closeBreak]
      have hrecord : ∀ id, clipRecord id d1 = clipRecord id ((d.turnList b).stopClip b) := fun id => by rw [hd1, clipRecord_closeBreak]
      refine ⟨fun hout => ?_, fun hout => ?_, ?_, fun l e hl he o ho z hz => ?_, fun clip r hplaying hnone hr => ?_,
        fun l e pre post hl he hsplit hnodup hlist => ?_⟩
      · rw [hd, asrun_appendDraft_waits hbefore x (.inr hout), hbefore]
      · refine appended_record ?_
        rw [hd]
        exact asrun_appendDraft_done hbefore x (by rw [hy']; rfl) hout hroom
      · rw [hd1, prog_closeBreak]
        rfl
      · rw [hlists] at hz
        exact heldBy_turnList hl he ho hz
      · have hturn : d.turnList b = d := by simp [Device.turnList, hnone]
        rw [hrecord, hturn, clipRecord_stopClip hr, if_pos hplaying]
      · have hpre : e ∉ pre := by
          rw [hsplit] at hnodup
          exact fun h => (List.nodup_append.mp hnodup).2.2 e h e List.mem_cons_self rfl
        intro left goes turned
        have hturned : turnedRing (b.source != .list) e (d.lists.rings[l]) = turned := by
          rw [hsplit]
          by_cases hsource : b.source = .list
          · simp only [turnedRing, turned, hsource, bne_self_eq_false, Bool.false_eq_true, if_false, if_true]
            exact ringFrom_split hpre
          · have hne : (b.source != .list) = true := by simpa using hsource
            simp only [turnedRing, turned, hsource, hne, if_false, if_true]
            exact ringAfter_split hpre
        refine ⟨?_, fun o z hz => ?_, fun clip r hr hstate => ?_⟩
        · rw [hlists, rings_turnList hl he hnodup hlist, hturned]
          rfl
        · rw [hlists]
          by_cases ho : o ∈ d.lists.rings[l]
          · rw [pool_turnList_mem hl he hnodup ho, hz, Option.bind_some]
            simp only [ho, not_true_eq_false, false_or]
            rfl
          · rw [pool_turnList_other hl he ho, hz, if_pos (.inl ho)]
        · rw [hrecord, clipRecord_stopClip (clipRecord_turnList hl he hnodup hr hstate), hturned]
          rfl
    · have hy' : y = f.onDraft y0 := hy.trans (by cases f <;> rfl)
      obtain ⟨e, hfate, he⟩ := markFate_asrun (x := x) (f := f) hbreak hdraft ht
      rw [← hy'] at he
      rw [hfate] at hd1
      refine ⟨fun hwaits => ?_, fun hclosed hout => ?_⟩
      · rw [hd1, asrun_appendDraft_waits he x hwaits, he]
      · refine appended_record ?_
        rw [hd1]
        exact asrun_appendDraft_done he x hclosed hout hroom

end Sys2Proof.Machine
end

section

/-! PROOFS. SiteRestart, block by block: the as-run records it makes, the intakes and the selector, the emission unit, the splice engine.
Settled: O24. -/

namespace Sys2Proof.Machine

/-! ### Folds -/

/-- What every turn of a fold leaves, the fold leaves. -/
theorem foldl_same {α β : Type} {g : Device → α → Device} (proj : Device → β) (h : ∀ d a, proj (g d a) = proj d) (l : List α) (d : Device) :
    proj (l.foldl g d) = proj d := by
  induction l generalizing d with
  | nil => rfl
  | cons a l ih => rw [List.foldl_cons, ih, h]

/-- What every turn of a fold keeps, the fold keeps. -/
theorem foldl_keeps {α : Type} {g : Device → α → Device} {q : Device → Prop} (h : ∀ d a, q d → q (g d a)) (l : List α) {d : Device}
    (hd : q d) : q (l.foldl g d) := by
  induction l generalizing d with
  | nil => exact hd
  | cons a l ih => exact ih (h d a hd)

/-- What one turn of a fold brings about, and every turn keeps, holds after the fold. -/
theorem foldl_reaches {α : Type} {g : Device → α → Device} {q : Device → Prop} {a : α} (hkeeps : ∀ d b, q d → q (g d b))
    (hreaches : ∀ d, q (g d a)) {l : List α} (ha : a ∈ l) (d : Device) : q (l.foldl g d) := by
  obtain ⟨before, after, rfl⟩ := List.append_of_mem ha
  rw [List.foldl_append, List.foldl_cons]
  exact foldl_keeps hkeeps after (hreaches _)

/-! ### The records of a restart (R154, R161) -/

/-- A record as SiteRestart makes them. -/
def AsRunRecord.ByRestart (y : AsRunRecord) : Prop :=
  y.cause = .siteRestart ∧ (y.outcome = .aborted ∨ y.outcome = .blanked ∨ y.outcome = .playedShort)

/-- Every draft has the cause SITE_RESTART, and the queue has grown by records of a restart alone. -/
def Restarting (before : List AsRunRecord) (d : Device) : Prop :=
  (∀ (n : DraftNo) (t : Draft), d.asrun.drafts[n] = some t → t.cause = .siteRestart)
    ∧ ∃ made, d.asrun.queue = before ++ made ∧ ∀ y ∈ made, y.ByRestart

/-- The outcome of a draft with the cause SITE_RESTART is never PLAYED. -/
theorem toRecord_byRestart {t : Draft} (h : t.cause = .siteRestart) : t.toRecord.ByRestart := by
  refine ⟨h, ?_⟩
  change t.outcome = _ ∨ t.outcome = _ ∨ t.outcome = _
  by_cases hfirst : t.first = none
  · exact .inl (outcome_aborted ⟨.inr h, hfirst⟩)
  · rw [outcome_not_aborted (fun hnot => hfirst hnot.2)]
    split
    · exact .inr (.inl rfl)
    · exact .inr (.inr (if_neg (fun hplayed => hplayed.2.2.2.2 h)))

namespace Restarting

variable {before : List AsRunRecord} {d e : Device}

theorem of_asrun (h : Restarting before d) (heq : e.asrun = d.asrun) : Restarting before e := by
  unfold Restarting
  rw [heq]
  exact h

theorem onDraft (h : Restarting before d) (n : Option DraftNo) {f : Draft → Draft}
    (hf : ∀ t, t.cause = .siteRestart → (f t).cause = .siteRestart) : Restarting before (Machine.onDraft n f d) := by
  cases n with
  | none => exact h
  | some n =>
    refine ⟨fun j t ht => ?_, h.2⟩
    by_cases hj : some n = some j
    · obtain rfl := Option.some.inj hj
      rw [drafts_onDraft_self] at ht
      obtain ⟨t0, ht0, rfl⟩ := Option.map_eq_some_iff.mp ht
      exact hf t0 (h.1 n t0 ht0)
    · rw [drafts_onDraft_other hj] at ht
      exact h.1 j t ht

theorem pushRecord (h : Restarting before d) (x : Site) {r : AsRunRecord} (hr : r.ByRestart) :
    Restarting before (Machine.pushRecord x r d) := by
  obtain ⟨hdrafts, made, hqueue, hmade⟩ := h
  by_cases hroom : d.asrun.queue.length < 64
  · rw [pushRecord_of_room hroom]
    refine ⟨hdrafts, made ++ [{ r with number := d.asrun.next }], ?_, fun y hy => ?_⟩
    · rw [refresh_asrun, Device.setAsRun_asrun, hqueue, List.append_assoc]
    · rcases List.mem_append.mp hy with hy | hy
      · exact hmade y hy
      · rw [List.mem_singleton.mp hy]
        exact hr
  · rw [pushRecord_of_full (Nat.not_lt.mp hroom)]
    exact ⟨hdrafts, made, hqueue, hmade⟩

theorem appendDraft (h : Restarting before d) (x : Site) (n : Option DraftNo) : Restarting before (Machine.appendDraft x n d) := by
  unfold Machine.appendDraft
  split
  · exact h
  · next n =>
    split
    · exact h
    · next t ht =>
      split
      · refine pushRecord (d := d.setAsRun { d.asrun with drafts := d.asrun.drafts.set n none }) ⟨fun j u hu => ?_, h.2⟩ x
          (toRecord_byRestart (h.1 n t ht))
        rw [Device.setAsRun_asrun] at hu
        by_cases hj : n.val = j.val
        · simp [hj] at hu
        · exact h.1 j u (by simpa [hj] using hu)
      · exact h

theorem markFate (h : Restarting before d) (x : Site) (f : Fate) (m : Mark) : Restarting before (Machine.markFate x f d m) := by
  unfold Machine.markFate
  split
  · exact h
  · refine appendDraft (of_asrun ?_ ((updProg_within _ _ _).asrun_eq (by decide))) x _
    refine (h.of_asrun ((updBreak_within d _ _ _).asrun_eq (by decide))).onDraft _ fun t ht => ?_
    cases f <;> exact ht

theorem endFrame (h : Restarting before d) (x : Site) (f : Fate) (slot : SlotNo) : Restarting before (Machine.endFrame x f slot d) :=
  (foldl_keeps (fun _ m hd => hd.markFate x f m) (d.slots[slot]).marks h).of_asrun ((freeSlot_within _ slot).asrun_eq (by decide))

theorem closeBreak (h : Restarting before d) (x : Site) (p : ProgNo) (b : Break) :
    Restarting before (Machine.closeBreak x p { b with cause := .siteRestart } d) := by
  rw [closeBreak_eq]
  refine appendDraft (of_asrun ?_ ((updProg_within _ _ _).asrun_eq (by decide))) x _
  refine (h.of_asrun ?_).onDraft _ fun t _ => rfl
  rw [(stopClip_within _ _).asrun_eq (by decide), (turnList_within _ _).asrun_eq (by decide)]

theorem closeBreaks (h : Restarting before d) (x : Site) (p : ProgNo) : Restarting before (Machine.closeBreaks x p .siteRestart d) :=
  foldl_keeps (fun _ b hd => hd.closeBreak x p b) _ h

theorem emptyQueue (h : Restarting before d) (x : Site) (p : ProgNo) :
    Restarting before (Machine.emptyQueue x p .aborted .siteRestart false d) := by
  rw [emptyQueue_eq]
  refine of_asrun (foldl_keeps (fun d c hd => ?_) _ h) ((updProg_within _ _ _).asrun_eq (by decide))
  exact pushRecord (hd.of_asrun ((setQueue_within x p _ _).asrun_eq (by decide))) x ⟨rfl, .inl rfl⟩

theorem finishDraft (h : Restarting before d) (x : Site) (n : DraftNo) : Restarting before (Machine.finishDraft x d n) :=
  (h.onDraft (some n) (f := fun t => { t with closed := true, outstanding := 0 }) fun _ ht => ht).appendDraft x (some n)

end Restarting

/-! ### The intakes and the selector (R32, R48) -/

/-- The device once the drafts have taken their cause, and the intakes and the selector have restarted. -/
def Device.unstream (d : Device) : Device := selectorRestart (intakeRestart (intakeRestart (restartDrafts d) .a) .b)

theorem withdraw_initial (a : Arbiter) (r : Requestor) : (a.withdraw r).initial = a.initial := by
  unfold Arbiter.withdraw
  split <;> rfl

theorem cancel_initial (a : Arbiter) (q : Target → Bool) : (a.cancel q).initial = a.initial := by
  simp only [Arbiter.cancel, apply_ite Arbiter.initial, withdraw_initial, ite_self]

theorem freeSlot_initial (i : SlotNo) (d : Device) : (freeSlot i d).arb.initial = d.arb.initial := cancel_initial d.arb _

theorem setIntake_within (d : Device) (f : Feed) (i : Intake) : d.Within [.intakes] (d.setIntake f i) := by
  intro q hq
  cases q <;> cases f <;> simp_all [Part.Same, Device.setIntake]

/-- Some slots are freed, and else only the listed parts change. -/
theorem intakeRestart_within (d : Device) (f : Feed) : d.Within [.intakes, .slots, .arb] (intakeRestart d f) := by
  unfold intakeRestart
  refine .trans ?_ ((setIntake_within _ f _).mono (by decide))
  split
  · exact (freeSlot_within d _).mono (by decide)
  · exact .refl _ d

theorem intakeRestart_initial (d : Device) (f : Feed) : (intakeRestart d f).arb.initial = d.arb.initial := by
  unfold intakeRestart
  dsimp only
  rw [(setIntake_within _ f _).arb_eq (by decide)]
  split
  · exact freeSlot_initial _ d
  · rfl

theorem intakeRestart_self (d : Device) (f : Feed) : (intakeRestart d f).intake f = Intake.reset := by
  cases f <;> rfl

theorem intakeRestart_other (d : Device) : (intakeRestart d .b).intakeA = d.intakeA := by
  have hfree : ∀ i, (freeSlot i d).intakeA = d.intakeA := fun _ => rfl
  simp only [intakeRestart, Device.setIntake]
  split <;> rfl

/-- The slots of the held copies are freed. -/
def freeHeld (d : Device) (e : PairEntry) : Device :=
  match e.held with
  | some (slot, _) => freeSlot slot d
  | none => d

theorem selectorRestart_eq (d : Device) : selectorRestart d = (d.sel.table.foldl freeHeld d).setSel ⟨[], []⟩ := rfl

theorem freeHeld_within (d : Device) (e : PairEntry) : d.Within [.slots, .arb] (freeHeld d e) := by
  unfold freeHeld
  split
  · exact freeSlot_within d _
  · exact .refl _ d

theorem freeHeld_initial (d : Device) (e : PairEntry) : (freeHeld d e).arb.initial = d.arb.initial := by
  unfold freeHeld
  split
  · exact freeSlot_initial _ d
  · rfl

theorem setSel_within (d : Device) (sel : Selector) : d.Within [.sel] (d.setSel sel) := by
  intro q hq
  cases q <;> simp_all [Part.Same]

theorem selectorRestart_within (d : Device) : d.Within [.sel, .slots, .arb] (selectorRestart d) := by
  rw [selectorRestart_eq]
  exact ((Device.Within.foldl freeHeld_within _ d).mono (by decide)).trans ((setSel_within _ _).mono (by decide))

section Unstream

variable (d : Device)

theorem unstream_within : d.Within [.asrun, .intakes, .sel, .slots, .arb] d.unstream :=
  (((setAsRun_within d _).mono (by decide)).trans ((intakeRestart_within _ .a).mono (by decide))).trans
    (((intakeRestart_within _ .b).mono (by decide)).trans ((selectorRestart_within _).mono (by decide)))

theorem unstream_initial : d.unstream.arb.initial = d.arb.initial := by
  rw [Device.unstream, selectorRestart_eq]
  exact (foldl_same (fun e => e.arb.initial) freeHeld_initial _ _).trans
    ((intakeRestart_initial _ .b).trans (intakeRestart_initial _ .a))

theorem unstream_intakes : d.unstream.intakeA = Intake.reset ∧ d.unstream.intakeB = Intake.reset := by
  obtain ⟨ha, hb⟩ := selectorRestart_within (intakeRestart (intakeRestart (restartDrafts d) .a) .b) .intakes (by decide)
  exact ⟨ha.trans ((intakeRestart_other _).trans (intakeRestart_self (restartDrafts d) .a)), hb.trans (intakeRestart_self _ .b)⟩

theorem unstream_sel : d.unstream.sel = ⟨[], []⟩ := rfl

theorem unstream_records : Restarting d.asrun.queue d.unstream := by
  have hdrafts : Restarting d.asrun.queue (restartDrafts d) := by
    refine ⟨fun n t ht => ?_, [], (List.append_nil _).symm, fun y hy => by cases hy⟩
    rw [restartDrafts, Device.setAsRun_asrun, vmap_get] at ht
    obtain ⟨t0, -, rfl⟩ := Option.map_eq_some_iff.mp ht
    rfl
  refine hdrafts.of_asrun ?_
  rw [Device.unstream, (selectorRestart_within _).asrun_eq (by decide), (intakeRestart_within _ .b).asrun_eq (by decide),
    (intakeRestart_within _ .a).asrun_eq (by decide)]

end Unstream

/-! ### The emission unit (R83) -/

section Emission

variable (x : Site)

/-- Splice work dropped without closing its breaks changes the slots and the splice engine alone. -/
theorem dropFrameWork_within (slot : SlotNo) (d : Device) : d.Within [.slots, .splice] (dropFrameWork x false slot d) := by
  have hstep : ∀ (r : Record) (d : Device) (p : ProgNo), d.Within [.slots, .splice] (endWorkOn x false r p d) := by
    intro r d p
    unfold endWorkOn
    split
    · exact .refl _ d
    · exact (updBreak_within d _ _ _).mono (by decide)
  exact (((updSlot_within d slot _).mono (by decide)).trans ((leaveSpliceQueue_within _ slot).mono (by decide))).trans
    (.foldl (hstep _) _ _)

/-- A frame taken out of service with its work: the parts it may change. -/
def frameParts : List Part := [.splice, .asrun, .ports, .slots, .arb]

theorem endWithWork_within (f : Fate) (slot : SlotNo) (d : Device) : d.Within frameParts (endFrame x f slot (dropFrameWork x false slot d)) :=
  ((dropFrameWork_within x slot d).mono (by decide)).trans (endFrame_within x _ f slot)

theorem endWithWork_initial (f : Fate) (slot : SlotNo) (d : Device) :
    (endFrame x f slot (dropFrameWork x false slot d)).arb.initial = d.arb.initial := by
  rw [endFrame, freeSlot_initial, (finalFate_within x _ f _).arb_eq (by decide), (dropFrameWork_within x slot d).arb_eq (by decide)]

theorem endWithWork_records {before : List AsRunRecord} {d : Device} (h : Restarting before d) (f : Fate) (slot : SlotNo) :
    Restarting before (endFrame x f slot (dropFrameWork x false slot d)) :=
  (h.of_asrun ((dropFrameWork_within x slot d).asrun_eq (by decide))).endFrame x f slot

/-- The device once the frame in service, if any, is ended. -/
def endItemFrame (f : Fate) (d : Device) : Device :=
  match d.em.item with
  | some ⟨.real slot, _, _⟩ => endFrame x f slot (dropFrameWork x false slot d)
  | _ => d

theorem abandonItem_eq (f : Fate) (d : Device) : abandonItem x f d = (endItemFrame x f d).setEm
    { (endItemFrame x f d).em with item := none, gaps := [], held := none, output := (endItemFrame x f d).em.output.take 1 } := rfl

theorem endItemFrame_cases (f : Fate) (d : Device) :
    endItemFrame x f d = d ∨ ∃ slot, endItemFrame x f d = endFrame x f slot (dropFrameWork x false slot d) := by
  unfold endItemFrame
  split
  · next slot _ _ _ => exact .inr ⟨slot, rfl⟩
  · exact .inl rfl

theorem endItemFrame_within (f : Fate) (d : Device) : d.Within frameParts (endItemFrame x f d) := by
  obtain h | ⟨slot, h⟩ := endItemFrame_cases x f d
  · rw [h]
    exact .refl _ d
  · rw [h]
    exact endWithWork_within x f slot d

theorem endItemFrame_initial (f : Fate) (d : Device) : (endItemFrame x f d).arb.initial = d.arb.initial := by
  obtain h | ⟨slot, h⟩ := endItemFrame_cases x f d
  · rw [h]
  · rw [h, endWithWork_initial]

theorem endItemFrame_records {before : List AsRunRecord} {d : Device} (h : Restarting before d) (f : Fate) :
    Restarting before (endItemFrame x f d) := by
  obtain hd | ⟨slot, hd⟩ := endItemFrame_cases x f d
  · rw [hd]
    exact h
  · rw [hd]
    exact endWithWork_records x h f slot

theorem removeFrame_within (f : Fate) (slot : SlotNo) (d : Device) : d.Within (.em :: frameParts) (removeFrame x false f slot d) :=
  ((setEm_within d _).mono (by decide)).trans ((endWithWork_within x f slot _).mono (by decide))

theorem removeFrame_output (f : Fate) (slot : SlotNo) (d : Device) : (removeFrame x false f slot d).em.output = d.em.output := by
  rw [removeFrame, (endWithWork_within x f slot _).em_eq (by decide)]
  rfl

theorem removeFrame_initial (f : Fate) (slot : SlotNo) (d : Device) : (removeFrame x false f slot d).arb.initial = d.arb.initial := by
  rw [removeFrame, endWithWork_initial, Device.setEm_arb]

theorem removeFrame_records {before : List AsRunRecord} {d : Device} (h : Restarting before d) (f : Fate) (slot : SlotNo) :
    Restarting before (removeFrame x false f slot d) := by
  rw [removeFrame]
  exact endWithWork_records x (h.of_asrun ((setEm_within d _).asrun_eq (by decide))) f slot

section Restart

variable (d : Device)

/-- The device once the item in service and the frames of the buffer are gone. -/
def Device.withoutFrames : Device :=
  (abandonItem x .removed d).em.buffer.foldl (fun d i => removeFrame x false .removed i d) (abandonItem x .removed d)

theorem emissionRestart_eq : emissionRestart x d = (d.withoutFrames x).setEm
    { Emission.reset with credits := x.timing.credits, output := (d.withoutFrames x).em.output } := rfl

theorem emissionRestart_within : d.Within (.em :: frameParts) (emissionRestart x d) := by
  have habandon : d.Within (.em :: frameParts) (abandonItem x .removed d) :=
    ((endItemFrame_within x .removed d).mono (by decide)).trans ((setEm_within _ _).mono (by decide))
  exact (habandon.trans (.foldl (fun d i => removeFrame_within x .removed i d) _ _)).trans ((setEm_within _ _).mono (by decide))

/-- The emission unit starts afresh, but for the cell on the output port. -/
theorem emissionRestart_em : (emissionRestart x d).em = { Emission.reset with credits := x.timing.credits, output := d.em.output.take 1 } := by
  have houtput : (d.withoutFrames x).em.output = d.em.output.take 1 := by
    refine (foldl_same (fun e => e.em.output) (fun d i => removeFrame_output x .removed i d) _ _).trans ?_
    rw [abandonItem_eq, Device.setEm_em, (endItemFrame_within x .removed d).em_eq (by decide)]
  rw [emissionRestart_eq, Device.setEm_em, houtput]

theorem emissionRestart_initial : (emissionRestart x d).arb.initial = d.arb.initial := by
  rw [emissionRestart_eq, Device.setEm_arb, Device.withoutFrames]
  refine (foldl_same (fun e => e.arb.initial) (fun d i => removeFrame_initial x .removed i d) _ _).trans ?_
  rw [abandonItem_eq, Device.setEm_arb, endItemFrame_initial]

variable {d}

theorem emissionRestart_records {before : List AsRunRecord} (h : Restarting before d) : Restarting before (emissionRestart x d) := by
  have habandon : Restarting before (abandonItem x .removed d) := by
    rw [abandonItem_eq]
    exact (endItemFrame_records x h .removed).of_asrun ((setEm_within _ _).asrun_eq (by decide))
  have hframes : Restarting before (d.withoutFrames x) := by
    rw [Device.withoutFrames]
    exact foldl_keeps (q := Restarting before) (fun _ i hd => removeFrame_records x hd .removed i) _ habandon
  rw [emissionRestart_eq]
  exact hframes.of_asrun ((setEm_within _ _).asrun_eq (by decide))

end Restart

end Emission

/-! ### The splice engine (R154) -/

section Splice

variable (x : Site)

/-- One programme's share of SiteRestart. -/
def restartProgramme (d : Device) (p : ProgNo) : Device :=
  (closeBreaks x p .siteRestart (emptyQueue x p .aborted .siteRestart false d)).updProg p (fun g => { g with closed := [] })

/-- The device once every programme has restarted. -/
def Device.withoutBreaks (d : Device) : Device := (List.finRange 8).foldl (restartProgramme x) d

theorem spliceRestart_eq (d : Device) : spliceRestart x d =
    { d.withoutBreaks x with splice := { (d.withoutBreaks x).splice with queue := [] } } := by
  unfold spliceRestart Device.withoutBreaks restartProgramme
  rfl

/-- A queue emptied without counting changes no counter. -/
theorem emptyUncounted_within (p : ProgNo) (d : Device) :
    d.Within [.splice, .asrun, .ports] (emptyQueue x p .aborted .siteRestart false d) := by
  rw [emptyQueue_eq]
  refine .trans (.foldl (fun d c => ?_) _ d) ((updProg_within _ p _).mono (by decide))
  exact ((setQueue_within x p _ d).mono (by decide)).trans ((immediateRecord_within x p _ _ _ _ _ _).mono (by decide))

theorem restartProgramme_within (d : Device) (p : ProgNo) : d.Within [.cat, .lists, .splice, .asrun, .ports] (restartProgramme x d p) :=
  (((emptyUncounted_within x p d).mono (by decide)).trans (closeBreaks_within x p .siteRestart _)).trans
    ((updProg_within _ p _).mono (by decide))

theorem prog_restartProgramme_self (d : Device) (p : ProgNo) : (restartProgramme x d p).splice.progs[p] = Programme.reset := by
  obtain ⟨hactive, hended, hqueue, hexpired, -⟩ :=
    prog_closeBreaks x p .siteRestart (emptyQueue x p .aborted .siteRestart false d)
  rw [splice_emptyQueue, Splice.setProg_same] at hqueue hexpired
  refine (vmodify_get_self ..).trans ?_
  obtain ⟨g, hg⟩ : ∃ g, g = (closeBreaks x p .siteRestart (emptyQueue x p .aborted .siteRestart false d)).splice.progs[p] := ⟨_, rfl⟩
  rw [← hg] at hactive hended hqueue hexpired ⊢
  obtain ⟨queue, active, ended, closed, expired⟩ := g
  obtain rfl : active = none := hactive
  obtain rfl : ended = [] := hended
  obtain rfl : queue = [] := hqueue
  obtain rfl : expired = [] := hexpired
  rfl

theorem prog_restartProgramme_other {o p : ProgNo} (hne : o ≠ p) (d : Device) :
    (restartProgramme x d p).splice.progs[o] = d.splice.progs[o] := by
  obtain ⟨-, -, -, -, hother⟩ := prog_closeBreaks x p .siteRestart (emptyQueue x p .aborted .siteRestart false d)
  refine (vmodify_get_other _ hne _).trans ?_
  rw [hother o hne, splice_emptyQueue, Splice.setProg_other _ hne]

theorem spliceRestart_within (d : Device) : d.Within [.cat, .lists, .splice, .asrun, .ports] (spliceRestart x d) := by
  have hprogs : d.Within [.cat, .lists, .splice, .asrun, .ports] (d.withoutBreaks x) := .foldl (restartProgramme_within x) _ d
  rw [spliceRestart_eq]
  exact hprogs.trans ((setSplice_within _ _).mono (by decide))

theorem spliceRestart_progs (d : Device) (q : ProgNo) : (spliceRestart x d).splice.progs[q] = Programme.reset := by
  have hprog : (d.withoutBreaks x).splice.progs[q] = Programme.reset := by
    refine foldl_reaches (q := fun e => e.splice.progs[q] = Programme.reset) (a := q) (fun d p h => ?_)
      (fun d => prog_restartProgramme_self x d q) (List.mem_finRange q) d
    by_cases hne : q = p
    · rw [hne]
      exact prog_restartProgramme_self x d p
    · rw [prog_restartProgramme_other x hne]
      exact h
  rw [spliceRestart_eq]
  exact hprog

theorem spliceRestart_queue (d : Device) : (spliceRestart x d).splice.queue = [] := by rw [spliceRestart_eq]

theorem restartProgramme_records {before : List AsRunRecord} {d : Device} (h : Restarting before d) (p : ProgNo) :
    Restarting before (restartProgramme x d p) :=
  ((h.emptyQueue x p).closeBreaks x p).of_asrun ((updProg_within _ p _).asrun_eq (by decide))

theorem spliceRestart_records {before : List AsRunRecord} {d : Device} (h : Restarting before d) : Restarting before (spliceRestart x d) := by
  have hprogs : Restarting before (d.withoutBreaks x) := by
    rw [Device.withoutBreaks]
    exact foldl_keeps (q := Restarting before) (fun _ p hd => restartProgramme_records x hd p) _ h
  rw [spliceRestart_eq]
  exact hprogs.of_asrun ((setSplice_within _ _).asrun_eq (by decide))

end Splice

end Sys2Proof.Machine
end

section

/-! PROOFS. SiteRestart, block by block: the loads, the slots, the lists and the drafts. Settled: O24. -/

namespace Sys2Proof.Machine

/-! ### The loads (R117) -/

/-- No load goes on: no context, no entry of the load FIFO and no LOADING record. -/
def LoadsGone (d : Device) : Prop :=
  d.cat.fifo = [] ∧ (∀ c : CtxNo, d.cat.ctxs[c] = none) ∧ ∀ (i : PlaceNo) (c : ClipRecord), d.cat.places[i] = some c → c.state ≠ .loading

/-- The load of a place, if any, aborted. -/
def stopLoading (d : Device) (i : PlaceNo) : Device := if (d.cat.places[i]).any (fun r => r.state == .loading) then abortLoad i d else d

/-- The device once no record is LOADING. -/
def Device.stopLoads (d : Device) : Device := (List.finRange 64).foldl stopLoading d

theorem abortLoads_eq (d : Device) :
    abortLoads d = d.stopLoads.setCat { d.stopLoads.cat with fifo := [], ctxs := Vector.replicate 4 none } := by
  unfold abortLoads Device.stopLoads
  generalize List.finRange 64 = l
  rfl

section Place

variable {i : PlaceNo} {d : Device} {r : ClipRecord} (hr : d.cat.places[i] = some r)

include hr

/-- An aborted load changes the catalogue, and the arbiter by withdrawing and discarding. -/
theorem abortLoad_frame : ∃ cat q, abortLoad i d = (d.setArb (d.arb.cancel q)).setCat cat
    ∧ cat.places = d.cat.places.set i (r.toAbsent).keep := by
  cases hctx : r.ctx with
  | none =>
    simp only [abortLoad, hr, hctx]
    exact ⟨_, _, rfl, rfl⟩
  | some c =>
    simp only [abortLoad, hr, hctx]
    exact ⟨_, _, rfl, rfl⟩

end Place

theorem stopLoading_cases (d : Device) (i : PlaceNo) :
    (stopLoading d i = d ∧ (d.cat.places[i]).any (fun r => r.state == .loading) = false)
      ∨ ∃ r cat q, stopLoading d i = (d.setArb (d.arb.cancel q)).setCat cat ∧ cat.places = d.cat.places.set i (ClipRecord.toAbsent r).keep := by
  unfold stopLoading
  split
  · cases hr : d.cat.places[i] with
    | none => next h => simp [hr] at h
    | some r =>
      obtain ⟨cat, q, hframe⟩ := abortLoad_frame hr
      exact .inr ⟨r, cat, q, hframe⟩
  · next h => exact .inl ⟨rfl, by simpa using h⟩

theorem stopLoading_within (d : Device) (i : PlaceNo) : d.Within [.cat, .arb] (stopLoading d i) := by
  obtain ⟨h, -⟩ | ⟨r, cat, q, h, -⟩ := stopLoading_cases d i
  · rw [h]
    exact .refl _ d
  · rw [h]
    exact ((setArb_within d _).mono (by decide)).trans ((setCat_within _ _).mono (by decide))

theorem stopLoading_initial (d : Device) (i : PlaceNo) : (stopLoading d i).arb.initial = d.arb.initial := by
  obtain ⟨h, -⟩ | ⟨r, cat, q, h, -⟩ := stopLoading_cases d i
  · rw [h]
  · rw [h, Device.setCat_arb, Device.setArb_arb, cancel_initial]

/-- The record of an aborted load is gone or ABSENT. -/
theorem toAbsent_keep_state {r c : ClipRecord} (h : (r.toAbsent).keep = some c) : c.state ≠ .loading := by
  unfold ClipRecord.keep at h
  split at h
  · cases h
  · cases h
    exact fun hstate => by cases hstate

theorem stopLoading_place_self (d : Device) (i : PlaceNo) (c : ClipRecord) (hc : (stopLoading d i).cat.places[i] = some c) :
    c.state ≠ .loading := by
  obtain ⟨h, hnot⟩ | ⟨r, cat, q, h, hplaces⟩ := stopLoading_cases d i
  · rw [h] at hc
    rw [hc] at hnot
    simpa using hnot
  · rw [h, Device.setCat_cat, hplaces] at hc
    exact toAbsent_keep_state (by simpa using hc)

theorem stopLoading_place_other {i j : PlaceNo} (hne : j ≠ i) (d : Device) : (stopLoading d i).cat.places[j] = d.cat.places[j] := by
  have hval : i.val ≠ j.val := fun h => hne (Fin.ext h.symm)
  obtain ⟨h, -⟩ | ⟨r, cat, q, h, hplaces⟩ := stopLoading_cases d i
  · rw [h]
  · rw [h, Device.setCat_cat, hplaces]
    simp [hval]

theorem stopLoads_places (d : Device) (i : PlaceNo) : ∀ c, d.stopLoads.cat.places[i] = some c → c.state ≠ .loading := by
  rw [Device.stopLoads]
  refine foldl_reaches (q := fun e => ∀ c, e.cat.places[i] = some c → c.state ≠ .loading) (a := i) (fun d j h => ?_)
    (fun d => stopLoading_place_self d i) (List.mem_finRange i) d
  by_cases hne : i = j
  · rw [hne]
    exact stopLoading_place_self d j
  · rw [stopLoading_place_other hne]
    exact h

theorem abortLoads_within (d : Device) : d.Within [.cat, .arb] (abortLoads d) := by
  have hstop : d.Within [.cat, .arb] d.stopLoads := by
    rw [Device.stopLoads]
    exact .foldl stopLoading_within _ d
  rw [abortLoads_eq]
  exact hstop.trans ((setCat_within _ _).mono (by decide))

theorem abortLoads_initial (d : Device) : (abortLoads d).arb.initial = d.arb.initial := by
  rw [abortLoads_eq, Device.setCat_arb, Device.stopLoads]
  exact foldl_same (fun e => e.arb.initial) stopLoading_initial _ d

theorem abortLoads_loadsGone (d : Device) : LoadsGone (abortLoads d) := by
  have hplaces := stopLoads_places d
  rw [abortLoads_eq]
  generalize d.stopLoads = e at hplaces ⊢
  exact ⟨rfl, fun c => by simp, hplaces⟩

/-! ### The ring entries (R132) -/

/-- An entry of the pool is free, or IDLE and held by no break. -/
def EntryIdle (e : EntryNo) (d : Device) : Prop := ∀ y, d.lists.pool[e] = some y → y.state = .idle ∧ y.holders = []

theorem settleEntry_cases (d : Device) (e : EntryNo) :
    (settleEntry d e = d ∧ d.lists.pool[e] = none)
      ∨ (∃ z : RingEntry, settleEntry d e = lowerUse z.clip (d.withoutEntry e z.list))
      ∨ ∃ z : RingEntry, settleEntry d e = setEntry e (some { z with state := .idle, holders := [] }) d := by
  unfold settleEntry
  split
  · next h => exact .inl ⟨rfl, h⟩
  · next z hz =>
    split
    · exact .inr (.inl ⟨z, unlinkEntry_of_entry hz⟩)
    · exact .inr (.inr ⟨z, rfl⟩)

theorem settleEntry_within (d : Device) (e : EntryNo) : d.Within [.cat, .lists] (settleEntry d e) := by
  obtain ⟨h, -⟩ | ⟨z, h⟩ | ⟨z, h⟩ := settleEntry_cases d e
  · rw [h]
    exact .refl _ d
  · rw [h]
    exact ((setLists_within d _).mono (by decide)).trans ((lowerUse_within _ _).mono (by decide))
  · rw [h]
    exact (setLists_within d _).mono (by decide)

/-- The pool after an entry is settled differs at that entry alone, which is then free or IDLE. -/
theorem settleEntry_pool (d : Device) (e : EntryNo) :
    ∃ o : Option RingEntry, (settleEntry d e).lists.pool = d.lists.pool.set e o ∧ ∀ y, o = some y → y.state = .idle ∧ y.holders = [] := by
  obtain ⟨h, hnone⟩ | ⟨z, h⟩ | ⟨z, h⟩ := settleEntry_cases d e
  · refine ⟨none, ?_, fun y hy => by cases hy⟩
    rw [h, vector_set_get hnone]
  · refine ⟨none, ?_, fun y hy => by cases hy⟩
    rw [h, (lowerUse_within _ _).lists_eq (by decide)]
    rfl
  · refine ⟨_, by rw [h]; rfl, fun y hy => ?_⟩
    cases hy
    exact ⟨rfl, rfl⟩

theorem settleEntry_idle (d : Device) (e : EntryNo) : EntryIdle e (settleEntry d e) := by
  obtain ⟨o, hpool, ho⟩ := settleEntry_pool d e
  intro y hy
  rw [hpool] at hy
  exact ho y (by simpa using hy)

theorem settleEntry_idle_other {e o : EntryNo} {d : Device} (h : EntryIdle o d) : EntryIdle o (settleEntry d e) := by
  by_cases heq : o = e
  · rw [heq]
    exact settleEntry_idle d e
  · have hval : e.val ≠ o.val := fun h => heq (Fin.ext h.symm)
    obtain ⟨z, hpool, -⟩ := settleEntry_pool d e
    intro y hy
    rw [hpool] at hy
    exact h y (by simpa [hval] using hy)

/-- A use count lowered begins no load. -/
theorem lowerUse_loadsGone {d : Device} (h : LoadsGone d) (id : ClipId) : LoadsGone (lowerUse id d) := by
  obtain ⟨hfifo, hctxs, hplaces⟩ := h
  unfold lowerUse
  split
  · exact ⟨hfifo, hctxs, hplaces⟩
  · next i _ =>
    refine ⟨hfifo, hctxs, fun j c hc => ?_⟩
    by_cases heq : j = i
    · subst heq
      have hc' : (d.cat.places[j]).bind (fun r => ({ r with use := r.use - 1 }).keep) = some c := by simpa [setPlace] using hc
      obtain ⟨r, hr, hkeep⟩ := Option.bind_eq_some_iff.mp hc'
      unfold ClipRecord.keep at hkeep
      split at hkeep
      · cases hkeep
      · cases hkeep
        exact hplaces j r hr
    · have hval : i.val ≠ j.val := fun h => heq (Fin.ext h.symm)
      exact hplaces j c (by simpa [setPlace, hval] using hc)

theorem settleEntry_loadsGone {d : Device} (h : LoadsGone d) (e : EntryNo) : LoadsGone (settleEntry d e) := by
  obtain ⟨hd, -⟩ | ⟨z, hd⟩ | ⟨z, hd⟩ := settleEntry_cases d e
  · rw [hd]
    exact h
  · rw [hd]
    exact lowerUse_loadsGone (d := d.withoutEntry e z.list) h z.clip
  · rw [hd]
    exact h

/-! ### The drafts (R161) -/

theorem pushRecord_drafts (x : Site) (r : AsRunRecord) (d : Device) : (pushRecord x r d).asrun.drafts = d.asrun.drafts := by
  unfold pushRecord
  split <;> rfl

theorem finishDraft_within (x : Site) (d : Device) (n : DraftNo) : d.Within [.asrun, .ports] (finishDraft x d n) :=
  ((onDraft_within d _ _).mono (by decide)).trans (appendDraft_within x _ _)

theorem finishDraft_drafts (x : Site) (d : Device) (n : DraftNo) : (finishDraft x d n).asrun.drafts = d.asrun.drafts.set n none := by
  cases ht : d.asrun.drafts[n] with
  | none =>
    have hsame : onDraft (some n) (fun t => { t with closed := true, outstanding := 0 }) d = d := by
      rw [onDraft, vmodify, ht, Option.map_none, vector_set_get ht]
      rfl
    rw [finishDraft, hsame, vector_set_get ht]
    simp only [appendDraft, ht]
  | some t =>
    have hdraft := asrun_onDraft ht (fun t => { t with closed := true, outstanding := 0 })
    rw [finishDraft]
    simp only [appendDraft, drafts_of_asrun hdraft, beq_self_eq_true, Bool.and_self, if_true]
    rw [pushRecord_drafts, Device.setAsRun_asrun, hdraft]
    exact Vector.set_set ..

/-! ### What SiteRestart leaves whatever its blocks found -/

section Settle

variable (x : Site) (d : Device)

/-- Every slot freed. -/
def Device.freeSlots : Device := (List.finRange 40).foldl (fun d i => freeSlot i d) d

/-- Every ring entry settled. -/
def Device.settleEntries : Device := (List.finRange 256).foldl settleEntry d

/-- Every draft appended. -/
def Device.finishDrafts : Device := (List.finRange 32).foldl (finishDraft x) d

theorem settleRestart_eq : settleRestart x d = d.freeSlots.settleEntries.finishDrafts x := by
  unfold settleRestart Device.freeSlots Device.settleEntries Device.finishDrafts
  generalize List.finRange 40 = slots
  generalize List.finRange 256 = entries
  rfl

theorem freeSlots_within : d.Within [.slots, .arb] d.freeSlots := by
  rw [Device.freeSlots]
  exact .foldl (fun d i => freeSlot_within d i) _ d

theorem settleEntries_within : d.Within [.cat, .lists] d.settleEntries := by
  rw [Device.settleEntries]
  exact .foldl settleEntry_within _ d

theorem finishDrafts_within : d.Within [.asrun, .ports] (d.finishDrafts x) := by
  rw [Device.finishDrafts]
  exact .foldl (finishDraft_within x) _ d

theorem settleRestart_within : d.Within [.slots, .arb, .cat, .lists, .asrun, .ports] (settleRestart x d) := by
  rw [settleRestart_eq]
  exact (((freeSlots_within d).mono (by decide)).trans ((settleEntries_within _).mono (by decide))).trans
    ((finishDrafts_within x _).mono (by decide))

theorem settleRestart_initial : (settleRestart x d).arb.initial = d.arb.initial := by
  rw [settleRestart_eq, (finishDrafts_within x _).arb_eq (by decide), (settleEntries_within _).arb_eq (by decide), Device.freeSlots]
  exact foldl_same (fun e => e.arb.initial) (fun d i => freeSlot_initial i d) _ d

theorem freeSlots_slots (i : SlotNo) : d.freeSlots.slots[i] = Record.empty := by
  rw [Device.freeSlots]
  refine foldl_reaches (q := fun e => e.slots[i] = Record.empty) (a := i) (fun d j h => ?_) (fun d => ?_) (List.mem_finRange i) d
  · by_cases heq : i = j
    · rw [heq]
      exact vmodify_get_self ..
    · exact (vmodify_get_other _ heq _).trans h
  · exact vmodify_get_self ..

theorem settleRestart_slots (i : SlotNo) : (settleRestart x d).slots[i] = Record.empty := by
  rw [settleRestart_eq, (finishDrafts_within x _).slots_eq (by decide), (settleEntries_within _).slots_eq (by decide), freeSlots_slots]

theorem settleRestart_entries (e : EntryNo) : EntryIdle e (settleRestart x d) := by
  have hidle : EntryIdle e d.freeSlots.settleEntries := by
    rw [Device.settleEntries]
    exact foldl_reaches (g := settleEntry) (q := EntryIdle e) (l := List.finRange 256) (fun _ _ h => settleEntry_idle_other h)
      (fun d => settleEntry_idle d e) (List.mem_finRange e) d.freeSlots
  intro y hy
  rw [settleRestart_eq, (finishDrafts_within x _).lists_eq (by decide)] at hy
  exact hidle y hy

variable {d}

theorem settleRestart_loadsGone (h : LoadsGone d) : LoadsGone (settleRestart x d) := by
  have hfree : LoadsGone d.freeSlots := by
    rw [LoadsGone, (freeSlots_within d).cat_eq (by decide)]
    exact h
  have hsettle : LoadsGone d.freeSlots.settleEntries := by
    rw [Device.settleEntries]
    exact foldl_keeps (q := LoadsGone) (fun _ e h => settleEntry_loadsGone h e) _ hfree
  rw [LoadsGone, settleRestart_eq, (finishDrafts_within x _).cat_eq (by decide)]
  exact hsettle

theorem settleRestart_records {before : List AsRunRecord} (h : Restarting before d) : Restarting before (settleRestart x d) := by
  have hsettle : Restarting before d.freeSlots.settleEntries := h.of_asrun (by
    rw [(settleEntries_within _).asrun_eq (by decide), (freeSlots_within d).asrun_eq (by decide)])
  rw [settleRestart_eq, Device.finishDrafts]
  exact foldl_keeps (q := Restarting before) (fun _ n hd => hd.finishDraft x n) _ hsettle

variable (d)

theorem settleRestart_drafts (n : DraftNo) : (settleRestart x d).asrun.drafts[n] = none := by
  rw [settleRestart_eq, Device.finishDrafts]
  refine foldl_reaches (q := fun e => e.asrun.drafts[n] = none) (a := n) (fun d j h => ?_) (fun d => ?_) (List.mem_finRange n) _
  · rw [finishDraft_drafts]
    by_cases hj : j.val = n.val
    · simp [hj]
    · simpa [hj] using h
  · rw [finishDraft_drafts]
    simp

end Settle

/-! ### The masks -/

/-- Both ports have the same masks on both devices. -/
def SameMasks (d d' : Device) : Prop := d'.net.mask = d.net.mask ∧ d'.maint.mask = d.maint.mask

theorem SameMasks.of_lower {x : Site} {d d' : Device} (h : Lower x d d') : SameMasks d d' := by
  refine ⟨?_, ?_⟩
  · rw [h.net]
  · rw [h.maint]

theorem SameMasks.of_within {ps : List Part} {d d' : Device} (h : d.Within ps d') (hports : Part.ports ∉ ps) : SameMasks d d' := by
  obtain ⟨-, hnet, hmaint⟩ := h .ports hports
  exact ⟨by rw [hnet], by rw [hmaint]⟩

theorem SameMasks.trans {d d' d'' : Device} (h : SameMasks d d') (h' : SameMasks d' d'') : SameMasks d d'' :=
  ⟨h'.1.trans h.1, h'.2.trans h.2⟩

theorem refresh_masks (x : Site) (d : Device) : SameMasks d (refresh x d) := .of_lower (refresh_lower (Weak.refl d))

/-! ### The device after SiteRestart -/

theorem restartDevice_eq (x : Site) (d : Device) : restartDevice x d =
    refresh x (settleRestart x (abortLoads (spliceRestart x (emissionRestart x d.unstream)))) := rfl

theorem restartDevice_masks (x : Site) (d : Device) : SameMasks d (restartDevice x d) := by
  have hunstream := SameMasks.of_within (unstream_within d) (by decide)
  have hsplice := SameMasks.of_lower (spliceRestart_lower (emissionRestart_lower (Lower.refl x d.unstream)))
  have hloads := SameMasks.of_within (abortLoads_within (spliceRestart x (emissionRestart x d.unstream))) (by decide)
  have hsettle := SameMasks.of_lower (settleRestart_lower (Lower.refl x (abortLoads (spliceRestart x (emissionRestart x d.unstream)))))
  rw [restartDevice_eq]
  exact (hunstream.trans hsplice).trans ((hloads.trans hsettle).trans (refresh_masks x _))

theorem restartDevice_initial (x : Site) (d : Device) : (restartDevice x d).arb.initial = d.arb.initial := by
  rw [restartDevice_eq, (refresh_within x _).arb_eq (by decide), settleRestart_initial, abortLoads_initial,
    (spliceRestart_within x _).arb_eq (by decide), emissionRestart_initial, unstream_initial]

theorem restartDevice_records (x : Site) (d : Device) : Restarting d.asrun.queue (restartDevice x d) := by
  have hsplice := spliceRestart_records x (emissionRestart_records x (unstream_records d))
  have hloads := hsplice.of_asrun ((abortLoads_within _).asrun_eq (by decide))
  exact (settleRestart_records x hloads).of_asrun ((refresh_within x _).asrun_eq (by decide))

/-- The parts a restart of the blocks behind the intakes and the selector may change. -/
theorem restartDevice_within (x : Site) (d : Device) :
    d.unstream.Within [.em, .splice, .asrun, .ports, .slots, .arb, .cat, .lists] (restartDevice x d) := by
  have hemission := (emissionRestart_within x d.unstream).mono
    (qs := [.em, .splice, .asrun, .ports, .slots, .arb, .cat, .lists]) (by decide)
  have hsplice := hemission.trans ((spliceRestart_within x _).mono (by decide))
  have hloads := hsplice.trans ((abortLoads_within _).mono (by decide))
  exact hloads.trans (((settleRestart_within x _).mono (by decide)).trans ((refresh_within x _).mono (by decide)))

theorem restartDevice_em (x : Site) (d : Device) :
    (restartDevice x d).em = { Emission.reset with credits := x.timing.credits, output := d.em.output.take 1 } := by
  rw [restartDevice_eq, (refresh_within x _).em_eq (by decide), (settleRestart_within x _).em_eq (by decide),
    (abortLoads_within _).em_eq (by decide), (spliceRestart_within x _).em_eq (by decide), emissionRestart_em,
    (unstream_within d).em_eq (by decide)]

theorem restartDevice_splice (x : Site) (d : Device) :
    (restartDevice x d).splice = (spliceRestart x (emissionRestart x d.unstream)).splice := by
  rw [restartDevice_eq, (refresh_within x _).splice_eq (by decide), (settleRestart_within x _).splice_eq (by decide),
    (abortLoads_within _).splice_eq (by decide)]

theorem restartDevice_loadsGone (x : Site) (d : Device) : LoadsGone (restartDevice x d) := by
  rw [LoadsGone, restartDevice_eq, (refresh_within x _).cat_eq (by decide)]
  exact settleRestart_loadsGone x (abortLoads_loadsGone _)

theorem restartDevice_slots (x : Site) (d : Device) (i : SlotNo) : (restartDevice x d).slots[i] = Record.empty := by
  rw [restartDevice_eq, (refresh_within x _).slots_eq (by decide), settleRestart_slots]

theorem restartDevice_entries (x : Site) (d : Device) (e : EntryNo) : EntryIdle e (restartDevice x d) := by
  rw [EntryIdle, restartDevice_eq, (refresh_within x _).lists_eq (by decide)]
  exact settleRestart_entries x _ e

theorem restartDevice_drafts (x : Site) (d : Device) (n : DraftNo) : (restartDevice x d).asrun.drafts[n] = none := by
  rw [restartDevice_eq, (refresh_within x _).asrun_eq (by decide), settleRestart_drafts]

/-- Settles O24: each block's share, and what no share touches. -/
theorem siteRestartClears : Obligations.SiteRestartClears := by
  intro p r s hserve
  obtain ⟨x, hx⟩ : ∃ x, x = { s.site with phase := .held } := ⟨_, rfl⟩
  have hcredits : x.timing = s.site.timing := by rw [hx]
  refine ⟨restartDevice x s.dev, ?_, ?_⟩
  · change execSiteRestart p s = _
    rw [execSiteRestart, serve_serving hserve, hx]
    rfl
  have hwithin := restartDevice_within x s.dev
  obtain ⟨hintakeA, hintakeB⟩ := hwithin .intakes (by decide)
  obtain ⟨hresetA, hresetB⟩ := unstream_intakes s.dev
  have hsel : (restartDevice x s.dev).sel = ⟨[], []⟩ := (hwithin.sel_eq (by decide)).trans (unstream_sel s.dev)
  obtain ⟨hfifo, hctxs, hplaces⟩ := restartDevice_loadsGone x s.dev
  obtain ⟨-, made, hqueue, hmade⟩ := restartDevice_records x s.dev
  obtain ⟨hnet, hmaint⟩ := restartDevice_masks x s.dev
  refine ⟨hintakeA.trans hresetA, hintakeB.trans hresetB, by rw [hsel], by rw [hsel], ?em, fun q => ?progs, ?queue,
    restartDevice_slots x s.dev, hfifo, hctxs, hplaces, restartDevice_entries x s.dev,
    restartDevice_drafts x s.dev, ⟨made, hqueue, hmade⟩, ?counters, ?mem, restartDevice_initial x s.dev, hnet, hmaint⟩
  case em => rw [restartDevice_em, hcredits]
  case progs =>
    rw [restartDevice_splice]
    exact spliceRestart_progs x _ q
  case queue => rw [restartDevice_splice, spliceRestart_queue]
  case counters => rw [hwithin.counters_eq (by decide), (unstream_within s.dev).counters_eq (by decide)]
  case mem => rw [hwithin.mem_eq (by decide), (unstream_within s.dev).mem_eq (by decide)]

end Sys2Proof.Machine
end

section

/-! PROOFS. A latched condition stays latched through every operation of the release scheduler, the emission unit and the splice engine
(R178). Settled: O51. -/

namespace Sys2Proof.Machine

/-- The latched condition of a bit is on. -/
def Shows (n : Nat) (d : Device) : Prop := d.latched.getLsbD n = true

namespace Shows

variable {n : Nat} {d d' : Device}

theorem of_within {ps : List Part} (h : Shows n d) (hw : d.Within ps d') (hp : Part.ports ∉ ps) : Shows n d' := by
  rw [Shows, (hw .ports hp).1]
  exact h

theorem foldl {α : Type} {step : Device → α → Device} (hstep : ∀ d a, Shows n d → Shows n (step d a)) (l : List α) (h : Shows n d) :
    Shows n (l.foldl step d) := foldl_keeps hstep l h

theorem setEm (h : Shows n d) (e : Emission) : Shows n (d.setEm e) := h

theorem refresh (h : Shows n d) (x : Site) : Shows n (Machine.refresh x d) := h

theorem latch (h : Shows n d) (x : Site) (bits : BitVec 16) : Shows n (Machine.latch x bits d) := by
  change (d.latched ||| bits).getLsbD n = true
  rw [BitVec.getLsbD_or, Bool.or_eq_true]
  exact .inl h

theorem bump (h : Shows n d) (x : Site) (hit : Counter → Nat) : Shows n (Machine.bump x hit d) := by
  unfold Machine.bump
  dsimp only
  split
  · exact latch (d := { d with counters := vmap (fun c => c.add (hit c)) d.counters }) h x _
  · exact h

theorem count (h : Shows n d) (x : Site) (cls : CountClass) (sub : Nat) : Shows n (Machine.count x cls sub d) := h.bump x _

theorem sample (h : Shows n d) (x : Site) (sent : Bool) : Shows n (Machine.sample x sent d) := h.bump x _

/-! ### The store -/

theorem ask (h : Shows n d) (x : Site) (r : Requestor) (t : Target) : Shows n (Machine.ask x r t d) := by
  unfold Machine.ask
  split
  · exact h
  · split
    · exact count (d := d.setArb (d.arb.begin_ r t)) h x .storeGrant r.idx.val
    · exact h

theorem askSplice (h : Shows n d) (x : Site) : Shows n (Machine.askSplice x d) := by
  unfold Machine.askSplice
  split
  · exact h
  · split
    · exact h
    · split
      · exact h
      · exact h.ask x _ _

theorem askEmit (h : Shows n d) (x : Site) : Shows n (Machine.askEmit x d) := by
  unfold Machine.askEmit
  split
  · split
    · split
      · exact h.ask x _ _
      · exact h
    · exact h
  · exact h

/-! ### The as-run unit -/

theorem loseRecord (h : Shows n d) (x : Site) : Shows n (Machine.loseRecord x d) := by
  rw [Shows, loseRecord_latched, BitVec.getLsbD_or, Bool.or_eq_true]
  exact .inl h

theorem pushRecord (h : Shows n d) (x : Site) (r : AsRunRecord) : Shows n (Machine.pushRecord x r d) := by
  unfold Machine.pushRecord
  split
  · exact h
  · exact h.loseRecord x

theorem appendDraft (h : Shows n d) (x : Site) (i : Option DraftNo) : Shows n (Machine.appendDraft x i d) := by
  unfold Machine.appendDraft
  split
  · exact h
  · split
    · exact h
    · split
      · exact (h.of_within (setAsRun_within d _) (by decide)).pushRecord x _
      · exact h

/-! ### Breaks and their frames -/

theorem closeBreak (h : Shows n d) (x : Site) (p : ProgNo) (b : Break) : Shows n (Machine.closeBreak x p b d) := by
  rw [closeBreak_eq]
  have hturn := h.of_within (turnList_within d b) (by decide)
  have hstop := hturn.of_within (stopClip_within _ b) (by decide)
  have hdraft := hstop.of_within (onDraft_within _ b.draft (closeDraft b)) (by decide)
  exact (hdraft.of_within (updProg_within _ p _) (by decide)).appendDraft x b.draft

theorem closeIfDone (h : Shows n d) (x : Site) (p : ProgNo) (id : Nat) : Shows n (Machine.closeIfDone x p id d) := by
  unfold Machine.closeIfDone
  split
  · exact h
  · split
    · exact h.closeBreak x p _
    · exact h

theorem endWork (h : Shows n d) (x : Site) (close : Bool) (p : ProgNo) (brk : Nat) : Shows n (Machine.endWork x close p brk d) := by
  have hupd : ∀ f, Shows n (updBreak p brk f d) := fun f => h.of_within (updBreak_within d p brk f) (by decide)
  unfold Machine.endWork
  dsimp only
  split
  · exact (hupd _).closeIfDone x p brk
  · exact hupd _

theorem markFate (h : Shows n d) (x : Site) (f : Fate) (m : Mark) : Shows n (Machine.markFate x f d m) := by
  unfold Machine.markFate
  split
  · exact h
  · next b _ =>
    have hupd : ∀ g, Shows n (updBreak m.prog m.brk g d) := fun g => h.of_within (updBreak_within d _ _ g) (by decide)
    have hdraft : ∀ g, Shows n (onDraft b.draft f.onDraft (updBreak m.prog m.brk g d)) := fun g =>
      (hupd g).of_within (onDraft_within _ _ _) (by decide)
    exact ((hdraft _).of_within (updProg_within _ _ _) (by decide)).appendDraft x _

theorem endFrame (h : Shows n d) (x : Site) (f : Fate) (slot : SlotNo) : Shows n (Machine.endFrame x f slot d) :=
  (foldl (fun _ m hd => hd.markFate x f m) (d.slots[slot]).marks h).of_within (freeSlot_within _ slot) (by decide)

/-! ### Items in service -/

theorem startReports (h : Shows n d) (x : Site) (k : ItemKind) : Shows n (Machine.startReports x k d) := by
  unfold Machine.startReports
  split
  · exact ((h.count x _ _).of_within (reportStart_within x _ _) (by decide)).sample x true
  · exact h

theorem beginSending (h : Shows n d) (x : Site) (i : Item) : Shows n (Machine.beginSending x i d) :=
  (((h.startReports x i.kind).setEm _).setEm _).askEmit x

theorem discardItem (h : Shows n d) (x : Site) (i : Item) (sub : Nat) (f : Fate) : Shows n (Machine.discardItem x i sub f d) := by
  unfold Machine.discardItem
  dsimp only
  refine setEm ?_ _
  split
  · exact (((h.count x _ _).setEm _).sample x false).endFrame x f _
  · exact (h.count x _ _).setEm _

theorem passGap (h : Shows n d) (x : Site) (i : Item) : Shows n (Machine.passGap x i d) := h

theorem handleItem (h : Shows n d) (x : Site) (i : Item) (at_ : Instant) : Shows n (Machine.handleItem x i at_ d) := by
  unfold Machine.handleItem
  split
  · exact h.discardItem x i _ _
  · split
    · exact h.discardItem x i _ _
    · exact h.passGap x i
  · split
    · exact h.discardItem x i _ _
    · split
      · exact h.beginSending x i
      · exact h

/-! ### Late fill -/

end Shows

theorem advanceMany_within (p : ProgNo) (k : Nat) (b : Break) (d : Device) : d.Within [.cat, .lists, .asrun] (advanceMany p k b d).2 := by
  induction k generalizing b d with
  | zero => exact .refl _ d
  | succ k ih => exact (advanceSource_within d p b).trans (ih _ _)

namespace Shows

variable {n : Nat} {d d' : Device}

theorem lateFillShare (h : Shows n d) (x : Site) (slot : SlotNo) (p : ProgNo) : Shows n (Machine.lateFillShare x slot d p) := by
  unfold Machine.lateFillShare
  dsimp only
  split
  · exact h
  · next m _ =>
    have hslot : ∀ g, Shows n ((d.updSlot slot (dropItems p)).updSlot slot g) := fun g => h
    split
    · exact hslot _
    · exact (((hslot _).of_within (advanceMany_within p _ _ _) (by decide)).of_within (updBreak_within _ _ _ _) (by decide)).endWork x _ _ _

theorem beginLateFill (h : Shows n d) (x : Site) (slot : SlotNo) : Shows n (Machine.beginLateFill x slot d) :=
  (h.of_within (flagLateFill_within _ d) (by decide)).count x _ _

theorem endLateFill (h : Shows n d) (x : Site) (slot : SlotNo) : Shows n (Machine.endLateFill x slot d) := by
  have hshares : Shows n ((d.slots[slot]).openProgs.foldl (Machine.lateFillShare x slot) d) :=
    foldl (fun _ p hd => hd.lateFillShare x slot p) _ h
  have hleave := hshares.of_within (leaveSpliceQueue_within _ slot) (by decide)
  exact (hleave.of_within (withdrawSplice_within _ _) (by decide)).askSplice x

/-! ### Due items -/

theorem takeFrame (h : Shows n d) (x : Site) (slot : SlotNo) (due : Due) : Shows n (Machine.takeFrame x slot due d) := by
  have htaken : Shows n (setSlotState slot .emitting (d.setEm { d.em with buffer := d.em.buffer.erase slot })) := h
  unfold Machine.takeFrame
  dsimp only
  split
  · split
    · exact htaken.beginLateFill x slot
    · exact ((htaken.beginLateFill x slot).endLateFill x slot).handleItem x _ _
  · exact htaken.handleItem x _ _

theorem takeGap (h : Shows n d) (x : Site) (g : GapFrame) : Shows n (Machine.takeGap x g d) := (h.setEm _).handleItem x _ _

theorem serveLoop (x : Site) (k : Nat) (h : Shows n d) : Shows n (Machine.serveLoop x k d) := by
  induction k generalizing d with
  | zero => exact h
  | succ k ih =>
    unfold Machine.serveLoop
    split
    · exact h
    · split
      · split
        · exact ih (h.takeGap x _)
        · split
          · exact ih (h.takeFrame x _ _)
          · exact h
      · split
        · exact ih (h.takeGap x _)
        · exact h
      · split
        · exact ih (h.takeFrame x _ _)
        · exact h
      · exact h

theorem serveItems (h : Shows n d) (x : Site) : Shows n (Machine.serveItems x d) := serveLoop x _ h

theorem afterModeChange (h : Shows n d) (x : Site) : Shows n (Machine.afterModeChange x d) := by
  unfold Machine.afterModeChange
  split
  · split
    · exact h
    · exact (h.handleItem x _ _).serveItems x
  · exact h

/-! ### The notice of a step -/

theorem skipCandidates (h : Shows n d) (x : Site) : Shows n (Machine.skipCandidates x d) := by
  unfold Machine.skipCandidates
  split <;> exact h

theorem reexamineFree (x : Site) (prev : Option Int) (l : List SlotNo) (h : Shows n d) : Shows n (Machine.reexamineFree x prev l d) := by
  induction l generalizing prev d with
  | nil => exact h
  | cons i l ih =>
    unfold Machine.reexamineFree
    split
    · exact ih _ h
    · dsimp only
      split
      · exact ih _ (d := d.updSlot i _) h
      · exact ih _ h

end Shows

/-! ### The flush (R74, R151) -/

theorem closeEach_eq (x : Site) (p : ProgNo) (l : List Break) (d : Device) :
    flushProgramme.closeEach x p l d = l.foldl (fun d b => closeBreak x p { b with cause := .timeLost } d) d := by
  induction l generalizing d with
  | nil => rfl
  | cons b l ih => exact ih _

theorem flushProgramme_within (x : Site) (lost : List Mark) (d : Device) (p : ProgNo) :
    d.Within [.cat, .lists, .splice, .asrun, .ports] (flushProgramme x lost d p) := by
  unfold flushProgramme
  rw [closeEach_eq]
  exact (Device.Within.foldl (fun d _ => closeBreak_within x d p _) _ d).trans ((updProg_within _ p _).mono (by decide))

namespace Shows

variable {n : Nat} {d : Device}

theorem flushProgramme (h : Shows n d) (x : Site) (lost : List Mark) (p : ProgNo) : Shows n (Machine.flushProgramme x lost d p) := by
  unfold Machine.flushProgramme
  rw [closeEach_eq]
  exact (foldl (fun _ _ hd => hd.closeBreak x p _) _ h).of_within (updProg_within _ p _) (by decide)

theorem endWithWork (h : Shows n d) (x : Site) (f : Fate) (slot : SlotNo) :
    Shows n (Machine.endFrame x f slot (dropFrameWork x false slot d)) :=
  (h.of_within (dropFrameWork_within x slot d) (by decide)).endFrame x f slot

theorem removeFrame (h : Shows n d) (x : Site) (f : Fate) (slot : SlotNo) : Shows n (Machine.removeFrame x false f slot d) := by
  rw [Machine.removeFrame]
  exact (h.setEm _).endWithWork x f slot

theorem abandonItem (h : Shows n d) (x : Site) (f : Fate) : Shows n (Machine.abandonItem x f d) := by
  rw [abandonItem_eq]
  refine setEm ?_ _
  obtain hd | ⟨slot, hd⟩ := endItemFrame_cases x f d
  · rw [hd]
    exact h
  · rw [hd]
    exact h.endWithWork x f slot

theorem flushBuffer (h : Shows n d) (x : Site) : Shows n (Machine.flushBuffer x d) := by
  have hmuted : Shows n (muteDrafts d) := h
  have hitem := hmuted.abandonItem x .flushed
  unfold Machine.flushBuffer
  exact askSplice (foldl (fun _ p hd => hd.flushProgramme x _ p) _
    (foldl (fun _ i hd => (hd.count x _ _).removeFrame x .flushed i) _ hitem)) x

end Shows

end Sys2Proof.Machine
end

section

/-! PROOFS. Steps of site time, and the flush at a loss of trust (R54 to R63, R74, R83). Settled: O51. -/

namespace Sys2Proof.Machine

/-! ### The frames of the buffer flushed (R74) -/

/-- One frame flushed: counted as NO_TIME and taken out of the buffer. -/
def flushFrame (x : Site) (d : Device) (i : SlotNo) : Device := removeFrame x false .flushed i (count x .frameDecided 4 d)

/-- The device once the item in service and the buffer are gone. -/
def Device.flushFrames (d : Device) (x : Site) : Device :=
  (abandonItem x .flushed (muteDrafts d)).em.buffer.foldl (flushFrame x) (abandonItem x .flushed (muteDrafts d))

/-- The device once the programmes have taken their loss of trust. -/
def Device.flushBreaks (d : Device) (x : Site) (lost : List Mark) : Device := (List.finRange 8).foldl (flushProgramme x lost) d

theorem flushBuffer_eq (x : Site) (d : Device) :
    flushBuffer x d = askSplice x ((d.flushFrames x).flushBreaks x (flushedMarks d)) := by
  unfold flushBuffer Device.flushBreaks
  generalize List.finRange 8 = l
  rfl

section Flush

variable (x : Site)

theorem endWorkOn_open_within (r : Record) (d : Device) (p : ProgNo) : d.Within [.splice] (endWorkOn x false r p d) := by
  unfold endWorkOn
  split
  · exact .refl _ d
  · exact updBreak_within d _ _ _

/-- A frame ended with its work gives its slot back, and no other slot changes. -/
theorem slots_endWithWork (f : Fate) (slot : SlotNo) (d : Device) :
    (endFrame x f slot (dropFrameWork x false slot d)).slots = d.slots.set slot Record.empty := by
  have hrest := fun d' => Device.Within.foldl (fun e p => endWorkOn_open_within x d.slots[slot] e p) (d.slots[slot]).openProgs d'
  rw [slots_endFrame, dropFrameWork, (hrest _).slots_eq (by decide), (leaveSpliceQueue_within _ slot).slots_eq (by decide),
    Device.updSlot_slots, vmodify, Vector.set_set]

theorem slots_flushFrame (d : Device) (i : SlotNo) : (flushFrame x d i).slots = d.slots.set i Record.empty := by
  rw [flushFrame, removeFrame, slots_endWithWork, Device.setEm_slots, (count_within x d _ _).slots_eq (by decide)]

/-- A freed slot stays free. -/
theorem slot_flushFrame_of_empty {j : SlotNo} {d : Device} (h : d.slots[j] = Record.empty) (i : SlotNo) :
    (flushFrame x d i).slots[j] = Record.empty := by
  rw [slots_flushFrame]
  by_cases hval : i.val = j.val
  · simp [hval]
  · simpa [hval] using h

theorem em_flushFrame (d : Device) (i : SlotNo) : (flushFrame x d i).em = { d.em with buffer := d.em.buffer.erase i } := by
  rw [flushFrame, removeFrame, (endWithWork_within x .flushed i _).em_eq (by decide), Device.setEm_em,
    (count_within x d _ _).em_eq (by decide)]

theorem em_foldl_flushFrame (l : List SlotNo) (d : Device) (h : d.em.buffer = l) :
    (l.foldl (flushFrame x) d).em = { d.em with buffer := [] } := by
  induction l generalizing d with
  | nil => rw [List.foldl_nil, ← h]
  | cons i l ih =>
    rw [List.foldl_cons, ih, em_flushFrame]
    rw [em_flushFrame, h]
    exact List.erase_cons_head ..

theorem counters_flushFrame (d : Device) (i : SlotNo) : (flushFrame x d i).counters = (count x .frameDecided 4 d).counters := by
  rw [flushFrame, removeFrame, (endWithWork_within x .flushed i _).counters_eq (by decide)]
  rfl

theorem counters_count_site (x y : Site) (cls : CountClass) (sub : Nat) {d d' : Device} (h : d'.counters = d.counters) :
    (count x cls sub d').counters = (count y cls sub d).counters := by
  rw [count, count, bump_counters, bump_counters, h]

theorem counters_foldl_flushFrame (y : Site) (l : List SlotNo) {d d' : Device} (h : d'.counters = d.counters) :
    (l.foldl (flushFrame x) d').counters = (l.foldl (fun d _ => count y .frameDecided 4 d) d).counters := by
  induction l generalizing d d' with
  | nil => exact h
  | cons i l ih =>
    rw [List.foldl_cons, List.foldl_cons]
    exact ih ((counters_flushFrame x d' i).trans (counters_count_site x y _ _ h))

/-! ### The frames with splice work after a flush (R151) -/

/-- The slots with splice work waiting are among the listed ones. -/
def QueueIn (q : List SlotNo) (d : Device) : Prop := ∀ i ∈ d.splice.queue, i ∈ q

theorem QueueIn.of_queue {q : List SlotNo} {d d' : Device} (h : QueueIn q d) (hqueue : d'.splice.queue = d.splice.queue) : QueueIn q d' := by
  unfold QueueIn
  rw [hqueue]
  exact h

theorem queue_markFate (f : Fate) (d : Device) (m : Mark) : (markFate x f d m).splice.queue = d.splice.queue := by
  unfold markFate
  split
  · rfl
  · have hdraft : ∀ (n : Option DraftNo) (e : Device), (onDraft n f.onDraft e).splice = e.splice := fun n e =>
      (onDraft_within e n _).splice_eq (by decide)
    rw [(appendDraft_within x _ _).splice_eq (by decide), Device.updProg, hdraft]
    rfl

theorem queue_endWithWork {q : List SlotNo} {d : Device} (h : QueueIn q d) (f : Fate) (slot : SlotNo) :
    QueueIn q (endFrame x f slot (dropFrameWork x false slot d)) := by
  have hwork : ∀ (r : Record) (e : Device) (p : ProgNo), (endWorkOn x false r p e).splice.queue = e.splice.queue := by
    intro r e p
    unfold endWorkOn
    split <;> rfl
  have hleave : QueueIn q (leaveSpliceQueue slot (d.updSlot slot (fun r => { r with work := r.work.take (r.cursor.getD 0) }))) :=
    fun i hi => h i (List.mem_of_mem_erase hi)
  have hdrop : QueueIn q (dropFrameWork x false slot d) :=
    hleave.of_queue (foldl_same (fun e => e.splice.queue) (fun e p => hwork d.slots[slot] e p) _ _)
  refine hdrop.of_queue ?_
  rw [endFrame, (freeSlot_within _ slot).splice_eq (by decide)]
  exact foldl_same (fun e => e.splice.queue) (fun e m => queue_markFate x f e m) _ _

theorem queue_flushFrame {q : List SlotNo} {d : Device} (h : QueueIn q d) (i : SlotNo) : QueueIn q (flushFrame x d i) := by
  rw [flushFrame, removeFrame]
  refine queue_endWithWork x (h.of_queue ?_) .flushed i
  exact congrArg Splice.queue ((count_within x d _ _).splice_eq (by decide))

theorem queue_flushProgramme (lost : List Mark) (d : Device) (p : ProgNo) :
    (flushProgramme x lost d p).splice.queue = d.splice.queue := by
  unfold flushProgramme
  rw [closeEach_eq]
  refine Eq.trans rfl (foldl_same (fun e => e.splice.queue) (fun e b => ?_) (d.splice.progs[p]).ended d)
  rw [splice_closeBreak]

/-- With the frame at the front of the splice queue freed, no splice burst is asked for. -/
theorem askSplice_of_empty_slots {d : Device} (h : ∀ i ∈ d.splice.queue, d.slots[i] = Record.empty) : askSplice x d = d := by
  cases hq : d.splice.queue with
  | nil => exact askSplice_of_empty hq x
  | cons i rest =>
    have hitems : (d.slots[i]).openItems = [] := by
      rw [h i (by rw [hq]; exact List.mem_cons_self)]
      rfl
    simp only [askSplice, hq, hitems]

/-! ### The whole flush -/

/-- The device once the item in service is abandoned and every draft muted. -/
def Device.abandoned (d : Device) : Device := abandonItem x .flushed (muteDrafts d)

theorem muteDrafts_within (d : Device) : d.Within [.asrun] (muteDrafts d) := setAsRun_within d _

theorem em_abandoned (d : Device) :
    (d.abandoned x).em = { d.em with item := none, gaps := [], held := none, output := d.em.output.take 1 } := by
  rw [Device.abandoned, abandonItem_eq, Device.setEm_em, (endItemFrame_within x .flushed _).em_eq (by decide),
    (muteDrafts_within d).em_eq (by decide)]

theorem counters_abandoned (d : Device) : (d.abandoned x).counters = d.counters := by
  rw [Device.abandoned, abandonItem_eq, (setEm_within _ _).counters_eq (by decide), (endItemFrame_within x .flushed _).counters_eq (by decide),
    (muteDrafts_within d).counters_eq (by decide)]

theorem slot_abandoned_item {i : SlotNo} {due : Due} {st : Stage} {d : Device} (h : d.em.item = some ⟨.real i, due, st⟩) :
    (d.abandoned x).slots[i] = Record.empty := by
  have hitem : (muteDrafts d).em.item = some ⟨.real i, due, st⟩ := h
  have hend : endItemFrame x .flushed (muteDrafts d) = endFrame x .flushed i (dropFrameWork x false i (muteDrafts d)) := by
    simp only [endItemFrame, hitem]
  rw [Device.abandoned, abandonItem_eq, hend, Device.setEm_slots, slots_endWithWork]
  simp

theorem queue_abandoned {q : List SlotNo} {d : Device} (h : QueueIn q d) : QueueIn q (d.abandoned x) := by
  rw [Device.abandoned, abandonItem_eq]
  obtain hd | ⟨slot, hd⟩ := endItemFrame_cases x .flushed (muteDrafts d)
  · rw [hd]
    exact h
  · rw [hd]
    exact queue_endWithWork (d := muteDrafts d) x h .flushed slot

theorem flushFrames_eq (d : Device) : d.flushFrames x = d.em.buffer.foldl (flushFrame x) (d.abandoned x) := by
  have hbuffer : (d.abandoned x).em.buffer = d.em.buffer := by rw [em_abandoned]
  rw [← hbuffer]
  rfl

theorem flushBreaks_within (lost : List Mark) (d : Device) : d.Within [.cat, .lists, .splice, .asrun, .ports] (d.flushBreaks x lost) := by
  rw [Device.flushBreaks]
  exact .foldl (flushProgramme_within x lost) _ d

theorem queue_flushBreaks (lost : List Mark) (d : Device) : (d.flushBreaks x lost).splice.queue = d.splice.queue := by
  rw [Device.flushBreaks]
  exact foldl_same (fun e => e.splice.queue) (queue_flushProgramme x lost) _ d

section Whole

variable (d : Device)

/-- What follows the frames of a flush: the breaks that close, and the next splice burst. -/
theorem flushBuffer_within : (d.flushFrames x).Within [.cat, .lists, .splice, .asrun, .ports, .arb, .counters] (flushBuffer x d) := by
  rw [flushBuffer_eq]
  exact ((flushBreaks_within x _ _).mono (by decide)).trans ((askSplice_within x _).mono (by decide))

/-- After a flush nothing is in service, waits or is buffered; the last admitted due and the last released stay. -/
theorem em_flushBuffer : (flushBuffer x d).em
    = { d.em with item := none, gaps := [], held := none, output := d.em.output.take 1, buffer := [] } := by
  have hbuffer : (d.abandoned x).em.buffer = d.em.buffer := by rw [em_abandoned]
  rw [(flushBuffer_within x d).em_eq (by decide), flushFrames_eq, em_foldl_flushFrame x _ _ hbuffer, em_abandoned]

variable {d}

theorem slot_flushBuffer_buffer {i : SlotNo} (h : i ∈ d.em.buffer) : (flushBuffer x d).slots[i] = Record.empty := by
  rw [(flushBuffer_within x d).slots_eq (by decide), flushFrames_eq]
  refine foldl_reaches (q := fun e => e.slots[i] = Record.empty) (fun e j he => slot_flushFrame_of_empty x he j) (fun e => ?_) h _
  rw [slots_flushFrame]
  simp

theorem slot_flushBuffer_item {i : SlotNo} {due : Due} {st : Stage} (h : d.em.item = some ⟨.real i, due, st⟩) :
    (flushBuffer x d).slots[i] = Record.empty := by
  rw [(flushBuffer_within x d).slots_eq (by decide), flushFrames_eq]
  exact foldl_keeps (q := fun e => e.slots[i] = Record.empty) (fun e j he => slot_flushFrame_of_empty x he j) _ (slot_abandoned_item x h)

/-- With splice work on frames of the buffer alone, a flush counts each frame of the buffer once, and nothing else. -/
theorem counters_flushBuffer (h : QueueIn d.em.buffer d) (y : Site) :
    (flushBuffer x d).counters = (d.em.buffer.foldl (fun d _ => count y .frameDecided 4 d) d).counters := by
  have hqueue : QueueIn d.em.buffer ((d.flushFrames x).flushBreaks x (flushedMarks d)) := by
    refine QueueIn.of_queue ?_ (queue_flushBreaks x _ _)
    rw [flushFrames_eq]
    exact foldl_keeps (q := QueueIn d.em.buffer) (fun e i he => queue_flushFrame x he i) _ (queue_abandoned x h)
  have hempty : ∀ i ∈ ((d.flushFrames x).flushBreaks x (flushedMarks d)).splice.queue,
      ((d.flushFrames x).flushBreaks x (flushedMarks d)).slots[i] = Record.empty := by
    intro i hi
    rw [(flushBreaks_within x _ _).slots_eq (by decide), ← (flushBuffer_within x d).slots_eq (by decide)]
    exact slot_flushBuffer_buffer x (hqueue i hi)
  rw [flushBuffer_eq, askSplice_of_empty_slots x hempty, (flushBreaks_within x _ _).counters_eq (by decide), flushFrames_eq]
  exact counters_foldl_flushFrame x y _ (counters_abandoned x d)

end Whole

end Flush

end Sys2Proof.Machine
end

section

/-! PROOFS. Pulses that step site time or only count, labels, and the notice of a step (R54 to R63). Settled: O51. -/

namespace Sys2Proof.Machine

/-! ### The notice of a step (R63, R64, R73, R74) -/

section Notice

variable {x : Site} {d : Device} {amount : Int}

theorem em_skipCandidates_item (x : Site) (d : Device) : (skipCandidates x d).em.item = d.em.item := by
  unfold skipCandidates
  split <;> rfl

/-- A step that ends trust in SFN_STRICT is a flush; the next candidate instants of the gap reference are then those still to come. -/
theorem takeNotice_lost (hmode : x.timing.mode = .sfnStrict) : takeNotice x ⟨some amount, .lost⟩ d = skipCandidates x (flushBuffer x d) := by
  have hlost : (x.timing.mode == SiteMode.sfnStrict && TrustChange.lost == TrustChange.lost) = true := by
    rw [hmode]
    rfl
  simp only [takeNotice, hlost, if_true, Option.isSome_some]
  refine afterModeChange_of_no_wait (fun k due h => ?_) x
  rw [em_skipCandidates_item, em_flushBuffer] at h
  cases h

/-- A step to untrusted time keeps what is latched. -/
theorem Shows.takeNotice_step {n : Nat} (h : Shows n d) (htrust : x.tb.trusted = false) (change : TrustChange) :
    Shows n (takeNotice x ⟨some amount, change⟩ d) := by
  unfold takeNotice
  simp only [Option.isSome_some, Option.isNone_some, if_true, Bool.false_eq_true, if_false]
  refine ((?_ : Shows n _).skipCandidates x).afterModeChange x
  split
  · exact h.flushBuffer x
  · split
    · rw [htrust, if_neg Bool.false_ne_true]
      exact h
    · exact h.reexamineFree x none _

end Notice

/-! ### A step (R63) -/

/-- The change of trust that a step makes. -/
def stepChange (old : Timebase) : TrustChange := if old.trusted then .lost else .none

/-- The device as the notice of a step finds it. -/
def Device.stepping (d : Device) (x : Site) : Device := latch x timeStepBit (count x .time 3 d)

theorem applyEvent_stepped (old new : Timebase) (s : State) :
    applyEvent (.stepped old new) s = (s.setTb new).setDev
      (takeNotice { s.site with tb := new } ⟨some (new.now - old.now), stepChange old⟩ (s.dev.stepping { s.site with tb := new })) := rfl

theorem shows_stepping (x : Site) (d : Device) : Shows 11 (d.stepping x) := by
  change ((count x .time 3 d).latched ||| timeStepBit).getLsbD 11 = true
  rw [BitVec.getLsbD_or, Bool.or_eq_true]
  exact .inr (by decide)

theorem stepping_within (x : Site) (d : Device) : d.Within [.counters, .ports] (d.stepping x) :=
  (count_within x d _ _).trans ((latch_within x _ _).mono (by decide))

theorem counters_stepping (x y : Site) (d : Device) : (d.stepping x).counters = (count y .time 3 d).counters := counters_count_site x y _ _ rfl

/-- What a step of site time to a second leaves in the state (R60, R63). -/
def SteppedTo (t : State) (l : BitVec 32) : Prop :=
  t.site.tb.disc = .acquiring ∧ t.site.tb.good = 0 ∧ t.site.tb.outliers = 0
    ∧ t.site.tb.holdover = 0 ∧ t.site.tb.ticks = 0 ∧ t.site.tb.secs = l ∧ t.site.tb.label = none ∧ t.dev.latched.getLsbD 11 = true

/-- What a flush leaves of the release buffer and the item in service (R74, R83). -/
def Flushed (d d' : Device) : Prop :=
  d'.em.item = none ∧ d'.em.gaps = [] ∧ d'.em.buffer = []
    ∧ d'.em.lastAdmitted = d.em.lastAdmitted ∧ d'.em.lastReleased = d.em.lastReleased
    ∧ (∀ i ∈ d.em.buffer, d'.slots[i] = Record.empty)
    ∧ (∀ i due st, d.em.item = some ⟨.real i, due, st⟩ → d'.slots[i] = Record.empty)

theorem trusted_of_acquiring {tb : Timebase} (h : tb.disc = .acquiring) : tb.trusted = false := by
  rw [Timebase.trusted, h]
  rfl

/-- A step into ACQUIRING with all counts at 0. -/
theorem steppedTo_applyEvent {old new : Timebase} {s : State} {l : BitVec 32} (hdisc : new.disc = .acquiring) (hgood : new.good = 0)
    (houtliers : new.outliers = 0) (hholdover : new.holdover = 0) (hticks : new.ticks = 0) (hsecs : new.secs = l) (hlabel : new.label = none) :
    SteppedTo (applyEvent (.stepped old new) s) l := by
  rw [applyEvent_stepped]
  exact ⟨hdisc, hgood, houtliers, hholdover, hticks, hsecs, hlabel,
    (shows_stepping _ _).takeNotice_step (x := { s.site with tb := new }) (trusted_of_acquiring hdisc) _⟩

theorem skipCandidates_em (x : Site) (d : Device) : ∃ g, (skipCandidates x d).em = { d.em with gapRef := g } := by
  unfold skipCandidates
  split
  · exact ⟨d.em.gapRef, rfl⟩
  · exact ⟨_, rfl⟩

theorem skipCandidates_within (x : Site) (d : Device) : d.Within [.em] (skipCandidates x d) := by
  unfold skipCandidates
  split
  · exact .refl _ d
  · exact setEm_within d _

theorem counters_foldl_count (y : Site) (l : List SlotNo) {d d' : Device} (h : d'.counters = d.counters) :
    (l.foldl (fun d _ => count y .frameDecided 4 d) d').counters = (l.foldl (fun d _ => count y .frameDecided 4 d) d).counters := by
  induction l generalizing d d' with
  | nil => exact h
  | cons i l ih => exact ih (counters_count_congr h y _ _)

section Lost

variable {old new : Timebase} {s : State} (hmode : s.site.timing.mode = .sfnStrict) (htrust : old.trusted = true)

include hmode htrust

theorem dev_applyEvent_lost : (applyEvent (.stepped old new) s).dev
    = skipCandidates { s.site with tb := new } (flushBuffer { s.site with tb := new } (s.dev.stepping { s.site with tb := new })) := by
  have hchange : stepChange old = .lost := if_pos htrust
  rw [applyEvent_stepped, hchange]
  exact takeNotice_lost (x := { s.site with tb := new }) hmode

/-- A step that ends trust in SFN_STRICT flushes. -/
theorem flushed_applyEvent : Flushed s.dev (applyEvent (.stepped old new) s).dev := by
  obtain ⟨x, hx⟩ : ∃ x, x = { s.site with tb := new } := ⟨_, rfl⟩
  have hdev := dev_applyEvent_lost (new := new) hmode htrust
  rw [← hx] at hdev
  have hem : (s.dev.stepping x).em = s.dev.em := (stepping_within x s.dev).em_eq (by decide)
  obtain ⟨g, hg⟩ := skipCandidates_em x (flushBuffer x (s.dev.stepping x))
  rw [em_flushBuffer, hem] at hg
  rw [hdev, Flushed, hg]
  refine ⟨rfl, rfl, rfl, rfl, rfl, fun i hi => ?_, fun i due st hi => ?_⟩
  · rw [(skipCandidates_within x _).slots_eq (by decide)]
    exact slot_flushBuffer_buffer x (by rw [hem]; exact hi)
  · rw [(skipCandidates_within x _).slots_eq (by decide)]
    exact slot_flushBuffer_item x (by rw [hem]; exact hi)

/-- The counts of such a step: the step itself, and NO_TIME once for each frame of the buffer. -/
theorem counters_applyEvent_lost (hqueue : ∀ i ∈ s.dev.splice.queue, i ∈ s.dev.em.buffer) (y : Site) :
    (applyEvent (.stepped old new) s).dev.counters
      = (s.dev.em.buffer.foldl (fun d _ => count y .frameDecided 4 d) (count y .time 3 s.dev)).counters := by
  obtain ⟨x, hx⟩ : ∃ x, x = { s.site with tb := new } := ⟨_, rfl⟩
  have hdev := dev_applyEvent_lost (new := new) hmode htrust
  rw [← hx] at hdev
  have hem : (s.dev.stepping x).em = s.dev.em := (stepping_within x s.dev).em_eq (by decide)
  have hsplice : (s.dev.stepping x).splice = s.dev.splice := (stepping_within x s.dev).splice_eq (by decide)
  have hin : QueueIn (s.dev.stepping x).em.buffer (s.dev.stepping x) := by
    rw [QueueIn, hem, hsplice]
    exact hqueue
  rw [hdev, (skipCandidates_within x _).counters_eq (by decide), counters_flushBuffer x hin y, hem]
  exact counters_foldl_count y _ (counters_stepping x y s.dev)

end Lost

/-! ### Outliers (R54 to R59) -/

section Outlier

variable (tb : Timebase) {e : Int}

theorem judgePulse_outlier (h : tb.disc = .locked ∨ tb.disc = .holdover) : judgePulse tb e false = outlierPulse tb e := by
  rcases h with h | h
  · simp only [judgePulse, h, Bool.false_eq_true, if_false]
  · simp only [judgePulse, h, Bool.not_false, if_true]

theorem judgePulse_acquiring_outlier (h : tb.disc = .acquiring) :
    judgePulse tb e false = .stepped tb { tb.align e with good := 0 } := by
  simp only [judgePulse, h, Bool.not_false, if_true]

theorem judgePulse_expired_present (h : tb.disc = .expired) (hpres : tb.present = true) (good : Bool) :
    judgePulse tb e good = .stepped tb (tb.align e).acquire := by
  simp only [judgePulse, h, hpres, if_true]

theorem judgePulse_expired_absent (h : tb.disc = .expired) (hpres : tb.present = false) (good : Bool) :
    judgePulse tb e good = .quiet tb := by
  simp only [judgePulse, h, hpres, Bool.false_eq_true, if_false]

theorem outlierPulse_third (h : tb.outliers = 2) : outlierPulse tb e = .stepped tb (tb.align e).acquire := by
  rw [outlierPulse, h, if_pos rfl]

theorem outlierPulse_few (h : tb.outliers < 2) : outlierPulse tb e = .quiet { tb with outliers := tb.outliers + 1 } := if_neg (by omega)

end Outlier

/-- The timebase once a label is consumed by a pulse. -/
def Timebase.consumed (tb : Timebase) : Timebase := { tb with label := none, pulseSeen := true }

section Label

variable {tb : Timebase} {l : BitVec 32} (hlabel : tb.label = some l)

include hlabel

theorem takePulse_unset_label (hdisc : tb.disc = .unset) (e : Int) (good : Bool) :
    takePulse tb e good = .quiet (tb.consumed.alignTo l).acquire := by
  simp only [takePulse, hlabel, hdisc, if_true]
  rfl

variable (hdisc : tb.disc ≠ .unset)

include hdisc

theorem takePulse_same_label {e : Int} (hsame : l = alignedSecs tb e) (good : Bool) :
    takePulse tb e good = judgePulse tb.consumed e good := by
  simp only [takePulse, hlabel, hdisc, if_false]
  exact if_pos hsame

theorem takePulse_other_label {e : Int} (hother : l ≠ alignedSecs tb e) (good : Bool) :
    takePulse tb e good = .stepped tb.consumed (tb.consumed.alignTo l).acquire := by
  simp only [takePulse, hlabel, hdisc, if_false]
  exact if_neg hother

end Label

theorem alignedSecs_eq {tb : Timebase} (h : tb.ticks < 10000000) : alignedSecs tb (phaseError tb.ticks) = tb.nearestSecs := by
  simp only [alignedSecs, Timebase.nearestSecs, phaseError_nonneg_iff h]

theorem trusted_of_locked_or_holdover {tb : Timebase} (h : tb.disc = .locked ∨ tb.disc = .holdover) : tb.trusted = true := by
  rw [Timebase.trusted, Bool.or_eq_true]
  simpa using h

/-! ### The pulse (R51, R60) -/

section Pulse

variable {s : State}

/-- The state a pulse is judged in, once it is counted. -/
def State.counted (s : State) (good : Bool) : State := s.setDev (count s.site .time (pulseSub good) s.dev)

theorem exec_referencePulse_takes {good : Bool} (hgood : decide ((phaseError s.site.tb.ticks).natAbs ≤ s.site.tb.lockWindow) = good) :
    exec .referencePulse s = .next (applyEvent (takePulse s.site.tb (phaseError s.site.tb.ticks) good) (s.counted good)) :=
  exec_referencePulse_eq hgood

/-- A step counted after the pulse that makes it, with the buffer and the item of before the pulse. -/
theorem flushed_counted {good : Bool} {old new : Timebase} (hmode : s.site.timing.mode = .sfnStrict) (htrust : old.trusted = true) :
    Flushed s.dev (applyEvent (.stepped old new) (s.counted good)).dev := by
  have hem : (s.counted good).dev.em = s.dev.em := (count_within s.site s.dev _ _).em_eq (by decide)
  have hflushed := flushed_applyEvent (old := old) (new := new) (s := s.counted good) hmode htrust
  rw [Flushed, hem] at hflushed
  exact hflushed

/-- A step to the second that an alignment gives. -/
theorem steppedTo_aligned (hticks : s.site.tb.ticks < 10000000) (hlabel : s.site.tb.label = none) (s' : State) :
    SteppedTo (applyEvent (.stepped s.site.tb.seen (s.site.tb.seen.align (phaseError s.site.tb.ticks)).acquire) s') s.site.tb.nearestSecs := by
  rw [align_eq (tb := s.site.tb.seen) hticks rfl]
  exact steppedTo_applyEvent rfl rfl rfl rfl rfl rfl hlabel

end Pulse

/-- Settles O51: labels and outliers in each state, steps and the flush. -/
theorem labelsAndOutliers : Obligations.LabelsAndOutliers := by
  intro s hticks secs outlier stepped flushed
  have hgoodIff := goodPulse_iff (w := s.site.tb.lockWindow) hticks
  have hbad : outlier → decide ((phaseError s.site.tb.ticks).natAbs ≤ s.site.tb.lockWindow) = false := by
    intro h
    rw [decide_eq_false_iff_not, hgoodIff]
    have h1 := h.1
    have h2 := h.2
    omega
  have hgood : ¬ outlier → decide ((phaseError s.site.tb.ticks).natAbs ≤ s.site.tb.lockWindow) = true := by
    intro h
    rw [decide_eq_true_eq]
    by_contra hnot
    refine h ⟨fun hlow => ?_, fun hhigh => ?_⟩
    · rw [hgoodIff] at hnot
      omega
    · rw [hgoodIff] at hnot
      omega
  obtain ⟨good, hjudged⟩ : ∃ good, decide ((phaseError s.site.tb.ticks).natAbs ≤ s.site.tb.lockWindow) = good := ⟨_, rfl⟩
  refine ⟨fun l hdisc hlabel => ?unsetLabel, fun hlabel hdisc hout => ?unsetOutlier,
    fun hlabel hdisc hout => ⟨fun hfew => ?few, fun hthird => ?third⟩, fun hlabel hdisc hout hnone hheld => ?acquiring,
    fun hlabel hdisc => ⟨fun hpres => ?expired, fun habs hout => ?absentOutlier, fun habs hin => ?absentGood⟩,
    fun l hdisc hlabel => ⟨fun hsame => ?sameLabel, fun hother => ?otherLabel⟩⟩
  case unsetLabel =>
    rw [exec_referencePulse_takes hjudged, takePulse_unset_label hlabel hdisc, applyEvent_quiet]
    have hcount := count_within s.site s.dev .time (pulseSub good)
    exact ⟨_, rfl, hcount.em_eq (by decide), hcount.slots_eq (by decide)⟩
  case unsetOutlier =>
    refine ⟨s.site.tb.nearestEra, ?_⟩
    have htake : takePulse s.site.tb (phaseError s.site.tb.ticks) false
        = .quiet { s.site.tb.seen with secs := secs, ticks := 0, era := s.site.tb.nearestEra } := by
      rw [takePulse_without_label hlabel, judgePulse_unset s.site.tb.seen hdisc, plainAlign_of_not_holdover (tb := s.site.tb.seen) hticks rfl]
      · rfl
      · exact fun h => by cases hdisc.symm.trans h
    rw [exec_referencePulse_takes (hbad hout), htake, applyEvent_quiet]
    rfl
  case few =>
    have htake : takePulse s.site.tb (phaseError s.site.tb.ticks) false
        = .quiet { s.site.tb.seen with outliers := s.site.tb.outliers + 1 } := by
      rw [takePulse_without_label hlabel, judgePulse_outlier s.site.tb.seen hdisc, outlierPulse_few s.site.tb.seen hfew]
      rfl
    rw [exec_referencePulse_takes (hbad hout), htake, applyEvent_quiet]
    exact ⟨_, rfl, (count_within s.site s.dev .time 1).em_eq (by decide)⟩
  case third =>
    have htake : takePulse s.site.tb (phaseError s.site.tb.ticks) false
        = .stepped s.site.tb.seen (s.site.tb.seen.align (phaseError s.site.tb.ticks)).acquire := by
      rw [takePulse_without_label hlabel, judgePulse_outlier s.site.tb.seen hdisc, outlierPulse_third s.site.tb.seen hthird]
    have htrust : s.site.tb.seen.trusted = true := trusted_of_locked_or_holdover hdisc
    refine ⟨_, ⟨by rw [exec_referencePulse_takes (hbad hout), htake], steppedTo_aligned hticks hlabel _⟩, fun hmode =>
      ⟨flushed_counted hmode htrust, fun hqueue => ?_⟩⟩
    have hcount := count_within s.site s.dev .time 1
    have hem : (s.counted false).dev.em = s.dev.em := hcount.em_eq (by decide)
    have hsplice : (s.counted false).dev.splice = s.dev.splice := hcount.splice_eq (by decide)
    have hcounters := counters_applyEvent_lost (old := s.site.tb.seen)
      (new := (s.site.tb.seen.align (phaseError s.site.tb.ticks)).acquire) (s := s.counted false) hmode htrust
      (by rw [hem, hsplice]; exact hqueue) s.site
    rw [hem] at hcounters
    exact hcounters
  case acquiring =>
    have htake : takePulse s.site.tb (phaseError s.site.tb.ticks) false
        = .stepped s.site.tb.seen { s.site.tb.seen.align (phaseError s.site.tb.ticks) with good := 0 } := by
      rw [takePulse_without_label hlabel, judgePulse_acquiring_outlier s.site.tb.seen hdisc]
    refine ⟨_, by rw [exec_referencePulse_takes (hbad hout), htake], ?_⟩
    have hstepped : SteppedTo (applyEvent (.stepped s.site.tb.seen { s.site.tb.seen.align (phaseError s.site.tb.ticks) with good := 0 })
        (s.counted false)) secs := by
      rw [align_eq (tb := s.site.tb.seen) hticks rfl]
      exact steppedTo_applyEvent hdisc rfl hnone hheld rfl rfl hlabel
    exact hstepped
  case expired =>
    have htake : takePulse s.site.tb (phaseError s.site.tb.ticks) good
        = .stepped s.site.tb.seen (s.site.tb.seen.align (phaseError s.site.tb.ticks)).acquire := by
      rw [takePulse_without_label hlabel, judgePulse_expired_present s.site.tb.seen hdisc hpres]
    exact ⟨_, by rw [exec_referencePulse_takes hjudged, htake], steppedTo_aligned hticks hlabel _⟩
  case absentOutlier =>
    rw [exec_referencePulse_takes (hbad hout), takePulse_without_label hlabel, judgePulse_expired_absent s.site.tb.seen hdisc habs, applyEvent_quiet]
    rfl
  case absentGood =>
    rw [exec_referencePulse_takes (hgood hin), takePulse_without_label hlabel, judgePulse_expired_absent s.site.tb.seen hdisc habs, applyEvent_quiet]
    rfl
  case sameLabel =>
    have htake := takePulse_same_label hlabel hdisc (hsame.trans (alignedSecs_eq hticks).symm) good
    have hwithout := takePulse_without_label (tb := { s.site.tb with label := none }) rfl (phaseError s.site.tb.ticks) good
    rw [exec_referencePulse_takes hjudged, exec_referencePulse_takes (s := s.setTb { s.site.tb with label := none }) hjudged, htake]
    exact congrArg (fun ev => Host.Outcome.next (applyEvent ev (s.counted good))) hwithout.symm
  case otherLabel =>
    have htake := takePulse_other_label hlabel hdisc (fun h => hother (h.trans (alignedSecs_eq hticks))) good
    refine ⟨_, ⟨by rw [exec_referencePulse_takes hjudged, htake], steppedTo_applyEvent rfl rfl rfl rfl rfl rfl rfl⟩, fun hmode htrusted => ?_⟩
    exact flushed_counted hmode (trusted_of_locked_or_holdover (tb := s.site.tb.consumed) htrusted)

end Sys2Proof.Machine
end
